-- ==== Sys2Proof/Word.lean ====
section
/-! DEFINITION. The words of the IS412: bytes, 16-bit values, port numbers, chain numbers, generations and
port sets, and the vocabulary of the port link (the 29 defined commands and the moments of a transaction).
Section numbers are those of spec/; a rule is cited as R<n>. -/

namespace Sys2Proof

/-- One byte of the store array or of a port link (R18, R154). -/
abbrev Byte := BitVec 8

/-- A two-byte value: a tag, a check value, an outcome value, a Settings field (R1, R159, R166). -/
abbrev Word := BitVec 16

/-- A port, P0 to P3 (00_scope, section 7). -/
abbrev Port := Fin 4

/-- A chain number: the index of a record in the Chain Table (R1). -/
abbrev ChainNo := Fin 64

/-- A generation, 0 to 15, wrapping (R7). -/
abbrev Gen := BitVec 4

/-- A port set: a 4-bit mask in which bit n stands for Pn (00_scope, section 7). -/
abbrev PortSet := BitVec 4

/-- A mask of the six attention reasons: the reason of code k stands at bit k - 1 (R124). -/
abbrev ReasonMask := BitVec 6

/-- The 29 commands the part defines (section 12.6). -/
inductive Cmd where
  | readResult | readAttention | readQueueStatus | readFreeStatus | readChainInfo | readSettings | identify
  | openChain | appendData | rewriteData | extendChain | readData
  | sealChain | unsealChain | discardChain | renewLease
  | handChain | takeInbound | releaseChain | adoptChain | recallChain
  | takeNotice | setEnables | acknowledgeAttention
  | claimSettings | writeSetting | commitSettings | abandonSettings | portReset
  deriving DecidableEq, Repr

/-- The class of a command, which fixes when it is taken and what it leaves (R156). -/
inductive CmdClass where
  | query | action | take | stream
  deriving DecidableEq, Repr

/-- The moments of a link transaction that belong to one command (R155, R156): its command byte becomes
whole; one of its operand bytes becomes whole; one further whole byte crosses the link in BODY (its input
ignored, its output delivered); select rises. -/
inductive Beat where
  | code
  | operand (b : Byte)
  | pass
  | rise
  deriving DecidableEq, Repr

/-- The moments of a transaction whose command byte names no defined command (R158). -/
inductive UnknownBeat where
  | code (c : Byte)
  | pass
  | rise
  deriving DecidableEq, Repr

/-- An edge on the input pins of a port's link (R154): PnSEL falls; PnCLK rises, with PnDI at this level; PnCLK
falls. -/
inductive LinkEdge where
  | select
  | rising (pnDI : Bool)
  | falling
  deriving DecidableEq, Repr

/-- An edge at a port's link. -/
structure PortEdge where
  port : Port
  edge : LinkEdge
  deriving DecidableEq, Repr

/-- The two moments of a stream's close (R29, R156): select rises; the last staging-line write is complete
and the outcome is recorded. -/
inductive CloseBeat where
  | rise
  | record
  deriving DecidableEq, Repr

end Sys2Proof
end

