-- ==== Sys2Proof/Config.lean ====
section
/-! DEFINITION. What the part fixes (the key figures of 00_scope, section 2, and the identity codes of R161),
and the free values: the orders that the spec says are not fixed. -/

namespace Sys2Proof.Config

/-- Blocks of the store (R18). -/
abbrev blockCount : Nat := 512
/-- Bytes of one block (R18). -/
abbrev blockBytes : Nat := 128
/-- Bytes of one line, the unit of every access to the array (R18). -/
abbrev lineBytes : Nat := 16
/-- Blocks of one chain at most (R3). -/
abbrev chainBlocks : Nat := 64
/-- Bytes of one chain at most (R3). -/
abbrev chainBytes : Nat := 8192
/-- Notices one queue holds at most (R89). -/
abbrev noticeDepth : Nat := 8
/-- Ticks of the settings-claim lease (R113). -/
abbrev claimTicks : Nat := 32

/-- Identity bytes that Identify outputs before its port byte (R161). -/
def identity : List Byte := [0x6A, 0x41, 0x01]

/-- The device-reset values of the 23 Settings fields, field ID 01h first (R135). -/
def settingsDefaults : Vector Word 23 :=
  #v[128, 128, 128, 128,  16, 16, 16, 16,  8, 8, 8, 8,  64, 64, 64, 64,  128,  2,  32,  64,  1,  0,  0x0F]

/-- FREE VALUE (log entry 8). The order in which CT takes the chains of one withdrawal "is not fixed" (R22,
R91, R145). The withdrawal numbered `event` takes its chains by rising key, equal keys by rising chain number.
No body: nothing can be proved of a key, so a claim holds for every order. -/
opaque chainTakeKey (event chain : Nat) : Nat

/-- FREE VALUE (log entry 9). When one commit disables several ports "they are withdrawn one after another in
either order" (R141, R145). The commit numbered `event` withdraws its ports by rising key, equal keys by rising
port number. -/
opaque portTakeKey (event port : Nat) : Nat

end Sys2Proof.Config
end

