-- ==== Sys2Proof/Syntax.lean ====
section
/-! DEFINITION. The commands and events of the IS412: one constructor per row of spec/opcode_table.json. -/

namespace Sys2Proof

/-- One step of the part, as spec/opcode_table.json lists them. A command of the port link carries its port and
the `Beat` of its transaction that the step is (log entry 2): the operands arrive byte by byte, and the step in
which a command takes effect is the one R156 names for its class. A byte is given whole by the row it belongs to, or
bit by bit by the clock edges of SELECT_FALL (log entry 18). -/
inductive Instr where
  /-- POWER_ON (R32): power becomes valid. -/
  | powerOn
  /-- RESETN_ASSERTION (R32): RESETn goes low. -/
  | resetnAssertion
  /-- RESETN_RELEASE (R32): RESETn goes high. -/
  | resetnRelease
  /-- INITIALIZATION_COMPLETE (R32): the last line of the initialization pass is written. -/
  | initializationComplete
  /-- SELECT_FALL (R154): PnSEL falls, or an edge of PnCLK follows (log entry 18). -/
  | selectFall (w : PortEdge)
  /-- FRAMING (R157): PnSEL rises before the command byte or its operands are whole; `bits` counts the bits
  sampled of the byte in transit beyond those that edges of SELECT_FALL have given. -/
  | framing (p : Port) (bits : Fin 8)
  /-- UNKNOWN_COMMAND (R158). -/
  | unknownCommand (p : Port) (b : UnknownBeat)
  /-- READ_RESULT (R160). -/
  | readResult (p : Port) (b : Beat)
  /-- READ_ATTENTION (R133). -/
  | readAttention (p : Port) (b : Beat)
  /-- READ_QUEUE_STATUS (R74). -/
  | readQueueStatus (p : Port) (b : Beat)
  /-- READ_FREE_STATUS (R122). -/
  | readFreeStatus (p : Port) (b : Beat)
  /-- READ_CHAIN_INFO (R17). -/
  | readChainInfo (p : Port) (b : Beat)
  /-- READ_SETTINGS (R144). -/
  | readSettings (p : Port) (b : Beat)
  /-- IDENTIFY (R161). -/
  | identify (p : Port) (b : Beat)
  /-- OPEN_CHAIN (R15). -/
  | openChain (p : Port) (b : Beat)
  /-- APPEND_DATA (R34). -/
  | appendData (p : Port) (b : Beat)
  /-- APPEND_DATA_BYTE (R37): a data byte becomes whole. -/
  | appendDataByte (p : Port) (x : Byte)
  /-- REWRITE_DATA (R34). -/
  | rewriteData (p : Port) (b : Beat)
  /-- REWRITE_DATA_BYTE (R41): a data byte becomes whole. -/
  | rewriteDataByte (p : Port) (x : Byte)
  /-- READ_DATA (R34). Its `pass` is the dummy byte of R46. -/
  | readData (p : Port) (b : Beat)
  /-- READ_DATA_BYTE (R46): a data byte is delivered. -/
  | readDataByte (p : Port)
  /-- STAGING_LINE_WRITE (R29): a granted line access of PIU p writes its staging line. -/
  | stagingLineWrite (p : Port)
  /-- STAGING_LINE_FILL (R30): a granted line access of PIU p fills its staging line. -/
  | stagingLineFill (p : Port)
  /-- STREAM_CLOSE (R29). -/
  | streamClose (p : Port) (b : CloseBeat)
  /-- EXTEND_CHAIN (R43). -/
  | extendChain (p : Port) (b : Beat)
  /-- SEAL_CHAIN (R54). -/
  | sealChain (p : Port) (b : Beat)
  /-- SEAL_LINE_READ (R56): a granted line read of the Seal Engine. -/
  | sealLineRead
  /-- SEAL_COMPLETION (R58): CT takes the completion the Seal Engine has raised. -/
  | sealCompletion
  /-- UNSEAL_CHAIN (R59). -/
  | unsealChain (p : Port) (b : Beat)
  /-- DISCARD_CHAIN (R16). -/
  | discardChain (p : Port) (b : Beat)
  /-- RENEW_LEASE (R108). -/
  | renewLease (p : Port) (b : Beat)
  /-- HAND_CHAIN (R65). -/
  | handChain (p : Port) (b : Beat)
  /-- TAKE_INBOUND (R76): the entry is fixed at the command byte, the take decided at select rise. -/
  | takeInbound (p : Port) (b : Beat)
  /-- RELEASE_CHAIN (R81). -/
  | releaseChain (p : Port) (b : Beat)
  /-- ADOPT_CHAIN (R84). -/
  | adoptChain (p : Port) (b : Beat)
  /-- RECALL_CHAIN (R86). -/
  | recallChain (p : Port) (b : Beat)
  /-- TAKE_NOTICE (R99): the notice is fixed at the command byte, the take decided at select rise. -/
  | takeNotice (p : Port) (b : Beat)
  /-- SET_ENABLES (R130). -/
  | setEnables (p : Port) (b : Beat)
  /-- ACKNOWLEDGE_ATTENTION (R131). -/
  | acknowledgeAttention (p : Port) (b : Beat)
  /-- CLAIM_SETTINGS (R137). -/
  | claimSettings (p : Port) (b : Beat)
  /-- WRITE_SETTING (R139). -/
  | writeSetting (p : Port) (b : Beat)
  /-- COMMIT_SETTINGS (R141). -/
  | commitSettings (p : Port) (b : Beat)
  /-- ABANDON_SETTINGS (R143). -/
  | abandonSettings (p : Port) (b : Beat)
  /-- PORT_RESET (R145). -/
  | portReset (p : Port) (b : Beat)
  /-- TICK (R102): the REFCLK period by which the divider reaches its ratio. -/
  | tick
  /-- CHAIN_LEASE_EXPIRY (R109): CT takes the expiry signalled for record n. -/
  | chainLeaseExpiry (n : ChainNo)
  /-- CLAIM_LEASE_EXPIRY (R113): SU takes the claim expiry. -/
  | claimLeaseExpiry
  /-- CLEARING_START (R23): the IDLE Clear Engine takes the Clear Queue's head. -/
  | clearingStart
  /-- CLEAR_LINE_WRITE (R23): a granted line write of the Clear Engine. -/
  | clearLineWrite
  /-- SELECT_RISE (R155): PnSEL rises and closes a transaction that records no outcome. -/
  | selectRise (p : Port)
  /-- REFCLK_PERIOD (R102): one period of REFCLK. -/
  | refclkPeriod
  deriving DecidableEq, Repr

end Sys2Proof
end

