-- ==== Sys2Proof/Decode.lean ====
section
/-! DEFINITION. Decoding. spec/opcode_table.json gives its rows no bits, so no word spells a row; the command
bytes of the port link (section 12.6) are decoded here, total on any byte. -/

namespace Sys2Proof

/-- The code of a command (section 12.6). -/
def Cmd.code : Cmd → Byte
  | .readResult => 0x10
  | .readAttention => 0x11
  | .readQueueStatus => 0x12
  | .readFreeStatus => 0x13
  | .readChainInfo => 0x14
  | .readSettings => 0x15
  | .identify => 0x1F
  | .openChain => 0x20
  | .appendData => 0x21
  | .rewriteData => 0x22
  | .extendChain => 0x23
  | .readData => 0x24
  | .sealChain => 0x25
  | .unsealChain => 0x26
  | .discardChain => 0x27
  | .renewLease => 0x28
  | .handChain => 0x30
  | .takeInbound => 0x31
  | .releaseChain => 0x32
  | .adoptChain => 0x33
  | .recallChain => 0x34
  | .takeNotice => 0x38
  | .setEnables => 0x39
  | .acknowledgeAttention => 0x3A
  | .claimSettings => 0x40
  | .writeSetting => 0x41
  | .commitSettings => 0x42
  | .abandonSettings => 0x43
  | .portReset => 0x5F

/-- Every defined command, in the order of the table of section 12.6. -/
def Cmd.all : List Cmd :=
  [.readResult, .readAttention, .readQueueStatus, .readFreeStatus, .readChainInfo, .readSettings, .identify,
   .openChain, .appendData, .rewriteData, .extendChain, .readData, .sealChain, .unsealChain, .discardChain,
   .renewLease, .handChain, .takeInbound, .releaseChain, .adoptChain, .recallChain, .takeNotice, .setEnables,
   .acknowledgeAttention, .claimSettings, .writeSetting, .commitSettings, .abandonSettings, .portReset]

/-- The command a command byte names, none for an undefined code (section 12.6, R158). -/
def Cmd.ofCode (b : Byte) : Option Cmd := Cmd.all.find? (fun c => c.code == b)

/-- The operand bytes a command needs (section 12.6). -/
def Cmd.operandCount : Cmd → Nat
  | .readResult | .readAttention | .readQueueStatus | .readFreeStatus | .identify => 0
  | .readChainInfo => 2
  | .readSettings => 1
  | .openChain | .appendData => 2
  | .rewriteData | .extendChain | .readData => 4
  | .sealChain | .unsealChain | .discardChain | .renewLease => 2
  | .handChain => 3
  | .takeInbound => 0
  | .releaseChain => 3
  | .adoptChain | .recallChain => 2
  | .takeNotice => 0
  | .setEnables | .acknowledgeAttention => 1
  | .claimSettings => 0
  | .writeSetting => 3
  | .commitSettings | .abandonSettings | .portReset => 0

/-- The class of a command (section 12.6). -/
def Cmd.cls : Cmd → CmdClass
  | .readResult | .readAttention | .readQueueStatus | .readFreeStatus | .readChainInfo | .readSettings
  | .identify => .query
  | .appendData | .rewriteData | .readData => .stream
  | .takeInbound | .takeNotice => .take
  | .openChain | .extendChain | .sealChain | .unsealChain | .discardChain | .renewLease | .handChain
  | .releaseChain | .adoptChain | .recallChain | .setEnables | .acknowledgeAttention | .claimSettings
  | .writeSetting | .commitSettings | .abandonSettings | .portReset => .action

/-- The command a word spells by the opcode table's bits: none, since the table gives no row any bits. -/
def decodeTableWord (_nbits _w : Nat) : Option Instr := none

end Sys2Proof
end

