-- ==== Sys2Proof/WellFormed.lean ====
section
/-! DEFINITION. Which terms of `Instr` name an event the spec knows. -/

namespace Sys2Proof

/-- A beat that a transaction of command c can have (R34, R155, R156): no operand byte where c takes none; the
data bytes of Append Data and Rewrite Data, and every stream's select rise, are rows of their own. -/
def beatOk (c : Cmd) : Beat → Bool
  | .code => true
  | .operand _ => 0 < c.operandCount
  | .pass => c ≠ .appendData && c ≠ .rewriteData
  | .rise => c.cls ≠ .stream

/-- A beat that a transaction of an undefined code can have: the code names no command (R158). -/
def unknownBeatOk : UnknownBeat → Bool
  | .code x => (Cmd.ofCode x).isNone
  | .pass => true
  | .rise => true

/-- The check: every term but these is ill formed and is refused. -/
def Instr.wellFormed : Instr → Bool
  | .powerOn | .resetnAssertion | .resetnRelease | .initializationComplete => true
  | .selectFall _ | .framing _ _ | .selectRise _ => true
  | .unknownCommand _ b => unknownBeatOk b
  | .readResult _ b => beatOk .readResult b
  | .readAttention _ b => beatOk .readAttention b
  | .readQueueStatus _ b => beatOk .readQueueStatus b
  | .readFreeStatus _ b => beatOk .readFreeStatus b
  | .readChainInfo _ b => beatOk .readChainInfo b
  | .readSettings _ b => beatOk .readSettings b
  | .identify _ b => beatOk .identify b
  | .openChain _ b => beatOk .openChain b
  | .appendData _ b => beatOk .appendData b
  | .rewriteData _ b => beatOk .rewriteData b
  | .readData _ b => beatOk .readData b
  | .appendDataByte _ _ | .rewriteDataByte _ _ | .readDataByte _ => true
  | .stagingLineWrite _ | .stagingLineFill _ | .streamClose _ _ => true
  | .extendChain _ b => beatOk .extendChain b
  | .sealChain _ b => beatOk .sealChain b
  | .sealLineRead | .sealCompletion => true
  | .unsealChain _ b => beatOk .unsealChain b
  | .discardChain _ b => beatOk .discardChain b
  | .renewLease _ b => beatOk .renewLease b
  | .handChain _ b => beatOk .handChain b
  | .takeInbound _ b => beatOk .takeInbound b
  | .releaseChain _ b => beatOk .releaseChain b
  | .adoptChain _ b => beatOk .adoptChain b
  | .recallChain _ b => beatOk .recallChain b
  | .takeNotice _ b => beatOk .takeNotice b
  | .setEnables _ b => beatOk .setEnables b
  | .acknowledgeAttention _ b => beatOk .acknowledgeAttention b
  | .claimSettings _ b => beatOk .claimSettings b
  | .writeSetting _ b => beatOk .writeSetting b
  | .commitSettings _ b => beatOk .commitSettings b
  | .abandonSettings _ b => beatOk .abandonSettings b
  | .portReset _ b => beatOk .portReset b
  | .tick | .chainLeaseExpiry _ | .claimLeaseExpiry | .clearingStart | .clearLineWrite | .refclkPeriod => true

end Sys2Proof
end

