-- ==== Sys2Proof/Machine/State.lean ====
section
/-! DEFINITION. The state of the IS412 as plain data: every piece of state its nine blocks hold, the input pins, and
the queue of commands that wait. `State.reset` is the part right after a device reset. -/

namespace Sys2Proof.Machine

/-! ### Names -/

/-- The five states of a chain record (R6). -/
inductive Phase where
  | vacant | opened | sealing | sealed | delivering
  deriving DecidableEq, Repr

/-- The roles a port may hold in a chain (R12). -/
inductive Role where
  | owner | origin | holder | pending
  deriving DecidableEq, Repr

/-- The outcome codes (section 12.7). -/
inductive ResultCode where
  | ok | short | void | incomplete | revoked | wrongState | notYours | stale | quotaBlocks
  | quotaChains | noBlock | noRecord | tooLong | queueFull | destInvalid | hops | empty | claimHeld
  | noClaim | badSetting | disabled | framing | unknownCommand | range | notSole | taken | destDisabled
  deriving DecidableEq, Repr

/-- The six attention reasons (R124). -/
inductive Reason where
  | inbound | notice | lowFree | settingsChanged | linkError | noticeLost
  deriving DecidableEq, Repr

/-- The watermark's states (R25). -/
inductive Watermark where
  | armed | tripped
  deriving DecidableEq, Repr

/-- The six requesters of the Store Arbiter (R27). -/
inductive Requester where
  | piu (p : Port) | sealEngine | clearEngine
  deriving DecidableEq, Repr

/-- How a destination leaves a delivered chain (R78). -/
inductive Departure where
  | accepted | refused | withdrawn
  deriving DecidableEq, Repr

/-! ### Chain records (CT) and their leases (LU) -/

/-- A chain reference: chain number and generation (R7, R52). -/
structure ChainRef where
  num : ChainNo
  gen : Gen
  deriving DecidableEq, Repr

/-- The fields every chain carries through its life (R1). -/
structure Label where
  tag  : Word
  hops : Fin 8
  deriving DecidableEq, Repr

/-- The participant fields of a DELIVERING record, with its origin (R1, R4). -/
structure Delivery where
  origin    : Port
  dests     : PortSet
  pend      : PortSet
  hold      : PortSet
  accepted  : Nat
  refused   : Nat
  withdrawn : Nat
  deriving DecidableEq, Repr

/-- A record's state with the fields that R2 marks present in that state and absent in others. -/
inductive Life where
  | vacant
  | opened (owner : Port) (l : Label)
  | sealing (owner : Port) (l : Label)
  | sealed (owner : Port) (l : Label) (check : Word)
  | delivering (d : Delivery) (l : Label) (check : Word)
  deriving DecidableEq, Repr

/-- One chain record (R1): its number is its place in the table; length and block list are present in every state,
0 and empty in VACANT (R2). -/
structure ChainRec where
  gen    : Gen
  life   : Life
  length : Nat
  blocks : List Nat
  deriving DecidableEq, Repr

/-- A chain lease counter (R104). -/
inductive Lease where
  | none
  | running (count : Nat) (gen : Gen)
  | raised (gen : Gen)
  deriving DecidableEq, Repr

/-- The settings-claim lease counter (R113). -/
inductive ClaimLease where
  | none
  | running (count : Nat)
  | raised
  deriving DecidableEq, Repr

/-! ### Engines (SE, BS) -/

/-- The run state of a RUNNING Seal Engine (R53). -/
structure SealRun where
  ref       : ChainRef
  length    : Nat
  next      : Nat
  reg       : Word
  finishing : Bool
  deriving DecidableEq, Repr

/-- What a CLEARING Clear Engine holds: its block, the fill byte taken at the start, the next line (R23). -/
structure Clearing where
  block : Nat
  fill  : Byte
  line  : Nat
  deriving DecidableEq, Repr

/-- The store array: the bytes that are not 00h, by store address, addresses rising; an unlisted address reads
as 00h (R18, R32). -/
abbrev Memory := List Host.Cell

/-! ### Queues (HU, NU) -/

/-- An inbound entry (R71). -/
structure Entry where
  ref    : ChainRef
  origin : Port
  hops   : Fin 8
  tag    : Word
  length : Nat
  void   : Bool
  deriving DecidableEq, Repr

/-- One inbound queue, head first, with its offsets and laps (R69, R70). -/
structure InQueue where
  entries   : List Entry
  posted    : Nat
  taken     : Nat
  postedLap : BitVec 8
  takenLap  : BitVec 8
  deriving DecidableEq, Repr

/-- A notice, by kind, with the fields R93 to R97 give it. -/
inductive Notice where
  | sealed (ref : ChainRef) (tag check : Word) (length : Nat)
  | consumed (ref : ChainRef) (tag : Word) (accepted refused withdrawn destinations : Nat)
  | expired (ref : ChainRef) (tag : Word) (phase : Phase) (pending holders : Nat)
  | revoked (ref : ChainRef) (tag : Word) (origin : Port)
  | claimLapsed
  deriving DecidableEq, Repr

/-! ### Settings (SU) -/

/-- A Settings record: 23 fields, field ID k at index k - 1 (R135, R166). -/
structure Settings where
  fields : Vector Word 23
  deriving DecidableEq, Repr

/-- The claim while it is held: its holder and the staged copy (R136). -/
structure Claim where
  holder : Port
  staged : Settings
  deriving DecidableEq, Repr

/-! ### Port Interface Units -/

/-- An outcome with its two values (R159). -/
structure Ending where
  code   : ResultCode
  value1 : Word
  value2 : Word
  deriving DecidableEq, Repr

/-- The Result record of a port (R159). -/
structure ResultRec where
  seq     : BitVec 8
  command : Byte
  ending  : Ending
  deriving DecidableEq, Repr

/-- The three streams (section 3.1). -/
inductive StreamKind where
  | append | rewrite | read
  deriving DecidableEq, Repr

/-- An accepted stream, from its acceptance to the recording of its outcome (R34 to R51). -/
structure Stream where
  kind    : StreamKind
  ref     : ChainRef
  /-- the offset operand (0 for Append Data) -/
  start   : Nat
  /-- Rewrite Data: the offset of the next byte received; Read Data: the offset of the next byte delivered -/
  offset  : Nat
  /-- bytes accepted, written, or real bytes delivered -/
  count   : Nat
  /-- Rewrite Data and Read Data: a whole byte fell at or past the length -/
  short   : Bool
  /-- Append Data: the check that stopped it -/
  stopped : Option ResultCode
  /-- Read Data: the byte in the output shift stage, none until the dummy byte has passed (R28, R46) -/
  shift   : Option Byte
  /-- ended by a vacate of its chain (R49) -/
  revoked : Bool
  /-- select has risen and the outcome is not recorded yet (R29) -/
  closing : Bool
  /-- the outcome, once the last staging-line write is complete and the stream no longer in progress (R29) -/
  earned  : Option Ending
  deriving DecidableEq, Repr

/-- The grant request of a PIU (R27, R29, R30). -/
inductive LineReq where
  | none | write | fill
  deriving DecidableEq, Repr

/-- A staging line (R28): the store address of its first byte, its 16 bytes with those placed or filled, and the
grant request waiting. -/
structure Staging where
  base  : Nat
  cells : Vector (Option Byte) 16
  req   : LineReq
  deriving DecidableEq, Repr

/-- What BODY is doing (R155): waiting for select rise; outputting a query's copy (the bytes left, and the record
to repeat); outputting the fixed entry or notice, with the count of bytes delivered; carrying an accepted stream;
refused when taken; ended by a withdrawal after it was taken (R150). -/
inductive Body where
  | await
  | copy (bytes again : List Byte)
  | inbound (fixed : Option Entry) (delivered : Nat)
  | notice (fixed : Option Notice) (delivered : Nat)
  | streaming
  | refused (e : Ending)
  | ended
  deriving DecidableEq, Repr

/-- The transaction state of a link (R155), with the command and the operand bytes received. -/
inductive Link where
  | deselected
  | command
  | operand (c : Cmd) (ops : List Byte)
  | body (c : Cmd) (ops : List Byte) (b : Body)
  | ignoring (code : Byte)
  deriving DecidableEq, Repr

/-- The bit level of a link (R154): the bits sampled of the byte in transit, the first one first; and the level that
the last clock edge left on PnDO, high-impedance being the inner none. `out` is none at the end of a byte given whole,
where PnDO shows the first bit of the byte that follows (log entry 18). -/
structure Wire where
  bits : List Bool
  out  : Option (Option Bool)
  deriving DecidableEq, Repr

/-- One Port Interface Unit and its select pin. `sel` is true while PnSEL is low. `early` marks a transaction that
opened while BS was INITIALIZING (R161). -/
structure Piu where
  sel     : Bool
  link    : Link
  wire    : Wire
  early   : Bool
  result  : ResultRec
  staging : Staging
  stream  : Option Stream
  deriving DecidableEq, Repr

/-! ### Reset values -/

/-- A record after device reset (R5). -/
def ChainRec.reset : ChainRec := { gen := 0, life := .vacant, length := 0, blocks := [] }

/-- An empty inbound queue (R69). -/
def InQueue.reset : InQueue := { entries := [], posted := 0, taken := 0, postedLap := 0, takenLap := 0 }

/-- An empty staging line with no grant request (R33). -/
def Staging.reset : Staging := { base := 0, cells := Vector.replicate 16 none, req := .none }

/-- The Result record after device reset (R159). -/
def ResultRec.reset : ResultRec := { seq := 0, command := 0, ending := ⟨.ok, 0, 0⟩ }

/-- A link between two bytes. -/
def Wire.idle : Wire := { bits := [], out := none }

/-- A PIU after device reset, its port not selected (R33, R155, R159; the pin's level: log entry 4). -/
def Piu.reset : Piu :=
  { sel := false, link := .deselected, wire := Wire.idle, early := false, result := ResultRec.reset,
    staging := Staging.reset, stream := none }

/-- The Settings record at its defaults (R135). -/
def Settings.reset : Settings := { fields := Config.settingsDefaults }

/-! ### The state -/

/-- The state of the part. -/
structure State where
  /-- the level of RESETn: true while high (R32) -/
  resetn     : Bool
  /-- BS is READY (R32) -/
  ready      : Bool
  /-- the store array (R18) -/
  store      : Memory
  /-- the Free List, head first (R19) -/
  free       : List Nat
  /-- the Clear Queue, head first (R23) -/
  clearQ     : List Nat
  /-- the Clear Engine: none while IDLE (R23) -/
  clearEng   : Option Clearing
  /-- the watermark (R25) -/
  watermark  : Watermark
  /-- the arbiter's position: the requester last granted (R27) -/
  arbPos     : Requester
  /-- the Chain Table (R1) -/
  recs       : Vector ChainRec 64
  /-- charged-block count of each port (R116) -/
  chBlocks   : Vector Nat 4
  /-- charged-chain count of each port (R116) -/
  chChains   : Vector Nat 4
  /-- the Seal Queue, head first (R52) -/
  sealQ      : List ChainRef
  /-- the Seal Engine: none while IDLE (R53) -/
  sealEng    : Option SealRun
  /-- the inbound queues (R69) -/
  inqs       : Vector InQueue 4
  /-- the notice queues, head first (R89) -/
  notqs      : Vector (List Notice) 4
  /-- the divider's count of REFCLK periods (R102) -/
  divider    : Nat
  /-- the chain lease counters (R104) -/
  leases     : Vector Lease 64
  /-- the settings-claim lease counter (R113) -/
  claimLease : ClaimLease
  /-- the edge request flags of each port, as a reason mask (R126) -/
  edges      : Vector ReasonMask 4
  /-- the enable flags of each port, as a reason mask (R124) -/
  enables    : Vector ReasonMask 4
  /-- the committed Settings record (R135) -/
  committed  : Settings
  /-- the claim: none while no port holds it (R136) -/
  claim      : Option Claim
  /-- the Port Interface Units -/
  pius       : Vector Piu 4
  /-- MODEL's own (log entry 1): the commands that wait, first in, first out -/
  pending    : List Instr
  /-- MODEL's own (log entry 10): the number of the next free order -/
  fresh      : Nat
  deriving DecidableEq, Repr

/-- The part right after a device reset: RESETn high again, the initialization pass running (R5, R32, R33, R63, R69,
R89, R115, R116, R134 to R136, R155, R159). -/
def State.reset : State :=
  { resetn := true
    ready := false
    store := []
    free := List.range Config.blockCount
    clearQ := []
    clearEng := none
    watermark := .armed
    arbPos := .clearEngine
    recs := Vector.replicate 64 ChainRec.reset
    chBlocks := Vector.replicate 4 0
    chChains := Vector.replicate 4 0
    sealQ := []
    sealEng := none
    inqs := Vector.replicate 4 InQueue.reset
    notqs := Vector.replicate 4 []
    divider := 0
    leases := Vector.replicate 64 .none
    claimLease := .none
    edges := Vector.replicate 4 0
    enables := Vector.replicate 4 0
    committed := Settings.reset
    claim := none
    pius := Vector.replicate 4 Piu.reset
    pending := []
    fresh := 0 }

/-! ### How a step can stop -/

/-- Why a step stops: the event at the front of the queue cannot take place in this state, so the spec gives it
no effect there (log entry 3). Every constructor is SAFE: the hardware never meets the event in such a state. -/
inductive Fault where
  /-- Raised by SELECT_FALL at a port whose PnSEL is already low (R154). Safe. -/
  | alreadySelected
  /-- Raised by a link event that does not fit the transaction state its port is in (R155), and by a byte given whole
  in the middle of a byte (R154, log entry 18). Safe. -/
  | linkPhase
  /-- Raised when a command byte becomes whole before the outcome of the port's last stream is recorded; R29 says
  it never does. Safe. -/
  | closePending
  /-- Raised by a stream byte, or by a stream's recording, that meets a staging line still waiting for its grant;
  R28 says none does. Safe. -/
  | lineNotReady
  /-- Raised by a line access that waits while the arbiter grants another requester next (R27). Safe. -/
  | notGranted
  deriving DecidableEq, Repr

/-- Why a step is refused. -/
inductive Refusal where
  /-- Raised by `exec` alone, for a command that has no meaning yet. Safe. -/
  | notModelled (mnemonic : String)
  /-- Raised by a meaning for a term that names no event of the spec (log entry 24): see `Instr.wellFormed`. Safe. -/
  | illFormed
  deriving DecidableEq, Repr

/-- What a meaning answers. -/
abbrev Answer := Host.Outcome State Fault Refusal

end Sys2Proof.Machine
end

