-- ==== Sys2Proof/Machine/Operands.lean ====
section
/-! DEFINITION. Operand forms and byte layouts: port sets, two-byte values, chain references, the fields of a Settings
record, and every layout a master sees on the link (section 12.8). -/

namespace Sys2Proof.Machine

/-! ### Port sets (00_scope section 7) -/

/-- The four ports, ascending. -/
def ports : List Port := [0, 1, 2, 3]

/-- Pn is in the set: bit n of the mask. -/
def inSet (m : PortSet) (p : Port) : Bool := m.getLsbD p.val

/-- The set of one port. -/
def only (p : Port) : PortSet := BitVec.twoPow 4 p.val

/-- The set without one port. -/
def without (m : PortSet) (p : Port) : PortSet := m &&& ~~~ only p

/-- The set with one port more. -/
def withPort (m : PortSet) (p : Port) : PortSet := m ||| only p

/-- How many ports a set names. -/
def card (m : PortSet) : Nat := (ports.filter (inSet m)).length

/-! ### Two-byte values, most significant byte first (R162) -/

/-- The high byte. -/
def hiByte (w : Word) : Byte := w.extractLsb' 8 8

/-- The low byte. -/
def loByte (w : Word) : Byte := w.setWidth 8

/-- The two bytes of a value as they are sent. -/
def be (w : Word) : List Byte := [hiByte w, loByte w]

/-- A count as a two-byte value. -/
def w16 (n : Nat) : Word := BitVec.ofNat 16 n

/-- A count as one byte. -/
def b8 (n : Nat) : Byte := BitVec.ofNat 8 n

/-- Operand byte i of a command. -/
def opByte (ops : List Byte) (i : Nat) : Byte := ops.getD i 0

/-- The two-byte operand that begins at operand byte i. -/
def opWord (ops : List Byte) (i : Nat) : Word := opByte ops i ++ opByte ops (i + 1)

/-- The chain reference in two operand bytes; none outside 00h-3Fh and 00h-0Fh (R11, R162). -/
def parseRef (num gen : Byte) : Option ChainRef :=
  if h : num.toNat < 64 ∧ gen.toNat < 16 then some ⟨⟨num.toNat, h.1⟩, gen.setWidth 4⟩ else none

/-- Chain number times 256 plus generation (R76). -/
def refWord (r : ChainRef) : Word := w16 (r.num.val * 256 + r.gen.toNat)

/-! ### Codes -/

/-- State codes (R6). -/
def Phase.code : Phase → Nat
  | .vacant => 0
  | .opened => 1
  | .sealing => 2
  | .sealed => 3
  | .delivering => 4

/-- Outcome codes (section 12.7). -/
def ResultCode.byte : ResultCode → Byte
  | .ok => 0x00
  | .short => 0x01
  | .void => 0x02
  | .incomplete => 0x03
  | .revoked => 0x04
  | .wrongState => 0x05
  | .notYours => 0x06
  | .stale => 0x07
  | .quotaBlocks => 0x08
  | .quotaChains => 0x09
  | .noBlock => 0x0A
  | .noRecord => 0x0B
  | .tooLong => 0x0C
  | .queueFull => 0x0D
  | .destInvalid => 0x0E
  | .hops => 0x0F
  | .empty => 0x10
  | .claimHeld => 0x11
  | .noClaim => 0x12
  | .badSetting => 0x13
  | .disabled => 0x14
  | .framing => 0x15
  | .unknownCommand => 0x16
  | .range => 0x17
  | .notSole => 0x18
  | .taken => 0x19
  | .destDisabled => 0x1A

/-! ### The fields of a record by state (R2) -/

/-- The state of a record. -/
def Life.phase : Life → Phase
  | .vacant => .vacant
  | .opened _ _ => .opened
  | .sealing _ _ => .sealing
  | .sealed _ _ _ => .sealed
  | .delivering _ _ _ => .delivering

/-- The owner: present in OPEN, SEALING and SEALED. -/
def Life.owner : Life → Option Port
  | .vacant => none
  | .opened o _ => some o
  | .sealing o _ => some o
  | .sealed o _ _ => some o
  | .delivering _ _ _ => none

/-- The delivery fields: present in DELIVERING. -/
def Life.delivery : Life → Option Delivery
  | .vacant | .opened _ _ | .sealing _ _ | .sealed _ _ _ => none
  | .delivering d _ _ => some d

/-- The charged port: the owner, or the origin of a DELIVERING record (R2, R117). -/
def Life.charged : Life → Option Port
  | .vacant => none
  | .opened o _ => some o
  | .sealing o _ => some o
  | .sealed o _ _ => some o
  | .delivering d _ _ => some d.origin

/-- Tag and hops: present in every state but VACANT. -/
def Life.label : Life → Option Label
  | .vacant => none
  | .opened _ l => some l
  | .sealing _ l => some l
  | .sealed _ l _ => some l
  | .delivering _ l _ => some l

/-- The check value: present in SEALED and DELIVERING (R64). -/
def Life.check : Life → Option Word
  | .vacant | .opened _ _ | .sealing _ _ => none
  | .sealed _ _ c => some c
  | .delivering _ _ c => some c

/-- The port holds the role in the chain (R12). -/
def Life.hasRole (l : Life) (p : Port) : Role → Bool
  | .owner => l.owner == some p
  | .origin => (l.delivery.map (·.origin)) == some p
  | .holder => (l.delivery.map (fun d => inSet d.hold p)) == some true
  | .pending => (l.delivery.map (fun d => inSet d.pend p)) == some true

/-! ### Settings fields (R135) -/

/-- Block quota of a port, 01h-04h. -/
def Settings.blockQuota (c : Settings) (p : Port) : Nat := (c.fields[p.val]'(by omega)).toNat
/-- Chain quota of a port, 05h-08h. -/
def Settings.chainQuota (c : Settings) (p : Port) : Nat := (c.fields[4 + p.val]'(by omega)).toNat
/-- Inbound depth of a port, 09h-0Ch. -/
def Settings.depth (c : Settings) (p : Port) : Nat := (c.fields[8 + p.val]'(by omega)).toNat
/-- Owner lease of a port, 0Dh-10h. -/
def Settings.ownerLease (c : Settings) (p : Port) : Nat := (c.fields[12 + p.val]'(by omega)).toNat
/-- Delivery lease, 11h. -/
def Settings.deliveryLease (c : Settings) : Nat := c.fields[16].toNat
/-- Tick select, 12h. -/
def Settings.tickSelect (c : Settings) : Nat := c.fields[17].toNat
/-- Low mark, 13h. -/
def Settings.lowMark (c : Settings) : Nat := c.fields[18].toNat
/-- High mark, 14h. -/
def Settings.highMark (c : Settings) : Nat := c.fields[19].toNat
/-- Clear on release, 15h. -/
def Settings.clearOnRelease (c : Settings) : Bool := c.fields[20] ≠ 0
/-- Fill byte, 16h. -/
def Settings.fillByte (c : Settings) : Byte := loByte c.fields[21]
/-- Port enable mask, 17h. -/
def Settings.enableMask (c : Settings) : PortSet := c.fields[22].setWidth 4

/-- The divider ratio of the tick select (R102). -/
def Settings.tickRatio (c : Settings) : Nat :=
  match c.tickSelect with
  | 0 => 32
  | 1 => 128
  | 2 => 512
  | _ => 2048

/-- The value lies in the range of the field of index i, field ID i + 1 (R135, R139). -/
def fieldInRange (i : Fin 23) (v : Word) : Bool :=
  let n := v.toNat
  if i.val < 4 then n ≤ 512
  else if i.val < 8 then n ≤ 64
  else if i.val < 12 then n = 4 || n = 8 || n = 16 || n = 32
  else if i.val < 17 then n ≤ 255
  else if i.val = 17 then n ≤ 3
  else if i.val = 18 then n ≤ 511
  else if i.val = 19 then 1 ≤ n && n ≤ 512
  else if i.val = 20 then n ≤ 1
  else if i.val = 21 then n ≤ 255
  else 1 ≤ n && n ≤ 15

/-- The index of a field ID; none outside 01h-17h (R139). -/
def fieldIndex (id : Byte) : Option (Fin 23) :=
  if h : 1 ≤ id.toNat ∧ id.toNat ≤ 23 then some ⟨id.toNat - 1, by omega⟩ else none

/-- How many fields differ between two records (R141, R143). -/
def Settings.changed (a b : Settings) : Nat :=
  ((List.finRange 23).filter (fun i => a.fields[i] ≠ b.fields[i])).length

/-- The 23 fields in field-ID order, two bytes each (R166). -/
def Settings.bytes (c : Settings) : List Byte := c.fields.toList.flatMap be

/-! ### Records on the link (R163) -/

/-- The Result record, 7 bytes. -/
def ResultRec.bytes (r : ResultRec) : List Byte :=
  [r.seq, r.command, r.ending.code.byte] ++ be r.ending.value1 ++ be r.ending.value2

/-- The inbound entry, 8 bytes; the void flag is not output (R71). -/
def Entry.bytes (e : Entry) : List Byte :=
  [b8 e.ref.num.val, e.ref.gen.setWidth 8, b8 e.origin.val, b8 e.hops.val] ++ be e.tag ++ be (w16 e.length)

/-- The kind code of a notice (R92). -/
def Notice.kind : Notice → Byte
  | .sealed _ _ _ _ => 0x01
  | .consumed _ _ _ _ _ _ => 0x02
  | .expired _ _ _ _ _ => 0x03
  | .revoked _ _ _ => 0x04
  | .claimLapsed => 0x05

/-- The chain a notice reports; none for CLAIM_LAPSED (R92). -/
def Notice.ref? : Notice → Option ChainRef
  | .sealed r _ _ _ => some r
  | .consumed r _ _ _ _ _ => some r
  | .expired r _ _ _ _ => some r
  | .revoked r _ _ => some r
  | .claimLapsed => none

/-- The tag of a notice; 0000h for CLAIM_LAPSED (R92). -/
def Notice.tag : Notice → Word
  | .sealed _ t _ _ => t
  | .consumed _ t _ _ _ _ => t
  | .expired _ t _ _ _ => t
  | .revoked _ t _ => t
  | .claimLapsed => 0

/-- The five detail bytes of a notice (R93 to R97). -/
def Notice.detail : Notice → List Byte
  | .sealed _ _ check len => be check ++ be (w16 len) ++ [0]
  | .consumed _ _ a r w n => [b8 a, b8 r, b8 w, b8 n, 0]
  | .expired _ _ ph pend hold => [b8 ph.code, b8 pend, b8 hold, 0, 0]
  | .revoked _ _ origin => [b8 origin.val, 0, 0, 0, 0]
  | .claimLapsed => [0, 0, 0, 0, 0]

/-- The notice, 10 bytes. -/
def Notice.bytes (n : Notice) : List Byte :=
  [n.kind] ++ (match n.ref? with | some r => [b8 r.num.val, r.gen.setWidth 8] | none => [0, 0]) ++ be n.tag ++ n.detail

/-! ### The roles and states each command accepts (R12) -/

/-- The rows of R12's table for a command that names a chain; empty for every other command. -/
def roleRows : Cmd → List (Role × List Phase)
  | .appendData | .rewriteData | .extendChain | .sealChain => [(.owner, [.opened])]
  | .unsealChain => [(.owner, [.sealing, .sealed])]
  | .discardChain => [(.owner, [.opened, .sealing, .sealed])]
  | .handChain => [(.owner, [.sealed])]
  | .readData => [(.owner, [.opened, .sealing, .sealed]), (.holder, [.delivering])]
  | .renewLease =>
    [(.owner, [.opened, .sealing, .sealed]), (.origin, [.delivering]), (.holder, [.delivering]),
     (.pending, [.delivering])]
  | .releaseChain | .adoptChain => [(.holder, [.delivering])]
  | .recallChain => [(.origin, [.delivering])]
  | .readResult | .readAttention | .readQueueStatus | .readFreeStatus | .readChainInfo | .readSettings | .identify
  | .openChain | .takeInbound | .takeNotice | .setEnables | .acknowledgeAttention | .claimSettings | .writeSetting
  | .commitSettings | .abandonSettings | .portReset => []

end Sys2Proof.Machine
end

