-- ==== Sys2Proof/Machine/Flags.lean ====
section
/-! DEFINITION. Flag computations: the attention requests, the top reason and the ATN line (AU), the raising and
clearing of edge requests, and the comparison of the watermark (BS). -/

namespace Sys2Proof.Machine

/-! ### Reasons (R124) -/

/-- The code of a reason, which is also its rank. -/
def Reason.code : Reason → Nat
  | .inbound => 1
  | .notice => 2
  | .lowFree => 3
  | .settingsChanged => 4
  | .linkError => 5
  | .noticeLost => 6

/-- The mask bit of a reason: bit code - 1. -/
def Reason.bit (r : Reason) : ReasonMask := BitVec.twoPow 6 (r.code - 1)

/-- The four edge reasons. -/
def edgeMask : ReasonMask := 0x3C

/-- The port's bit in the committed port enable mask (R128, R151). -/
def State.isEnabled (s : State) (p : Port) : Bool := inSet s.committed.enableMask p

/-- The level requests of a port: INBOUND while its inbound queue holds an entry, live or void, NOTICE while its
notice queue holds a notice (R125). -/
def State.levels (s : State) (p : Port) : ReasonMask :=
  (if s.inqs[p].entries.isEmpty then 0 else Reason.bit .inbound) |||
  (if s.notqs[p].isEmpty then 0 else Reason.bit .notice)

/-- The request mask of a port (R124). -/
def State.requests (s : State) (p : Port) : ReasonMask := (s.edges[p] &&& edgeMask) ||| s.levels p

/-- The code of the highest reason of a mask, 0 for none (R129). -/
def highest (m : ReasonMask) : Nat :=
  if m.getLsbD 5 then 6 else if m.getLsbD 4 then 5 else if m.getLsbD 3 then 4
  else if m.getLsbD 2 then 3 else if m.getLsbD 1 then 2 else if m.getLsbD 0 then 1 else 0

/-- The top reason of a port (R129). -/
def State.topReason (s : State) (p : Port) : Nat := highest (s.requests p &&& s.enables[p])

/-- PnATN is driven low: some reason has both its request and its enable set (R129). -/
def State.atnLow (s : State) (p : Port) : Bool := (s.requests p &&& s.enables[p]) ≠ 0

/-- AU raises an edge request at a port, unless the port is disabled (R126, R128). -/
def State.raise (r : Reason) (p : Port) (s : State) : State :=
  { s with edges := s.edges.set p (if s.isEnabled p then s.edges[p] ||| r.bit else s.edges[p]) }

/-- AU raises an edge request at every enabled port but those of `except` (R25, R127). -/
def State.raiseAll (r : Reason) (except : PortSet) (s : State) : State :=
  { s with edges := Vector.ofFn (fun p : Port =>
      if s.isEnabled p && !inSet except p then s.edges[p] ||| r.bit else s.edges[p]) }

/-! ### The watermark (R25) -/

/-- A fall of the free count leaves it at `n`: it trips the watermark. -/
def State.trips (s : State) (n : Nat) : Bool := s.watermark = .armed && n < s.committed.lowMark

/-- A rise of the free count leaves it at `n`: it re-arms the watermark. -/
def State.rearms (s : State) (n : Nat) : Bool := s.watermark = .tripped && s.committed.highMark ≤ n

/-- The Free List after a fall, compared with the low mark: a trip raises LOW_FREE at every enabled port. -/
def State.freeFalls (l : List Nat) (s : State) : State :=
  { s with
    free := l
    watermark := if s.trips l.length then .tripped else s.watermark
    edges := if s.trips l.length then (s.raiseAll .lowFree 0).edges else s.edges }

/-- The Free List after a rise, compared with the high mark: a re-arm raises nothing. -/
def State.freeRises (l : List Nat) (s : State) : State :=
  { s with
    free := l
    watermark := if s.rearms l.length then .armed else s.watermark }

end Sys2Proof.Machine
end

