-- ==== Sys2Proof/Machine/Ops.lean ====
section
/-! DEFINITION. The named operations over State that the meanings share: the store array, the Free List and the Clear
Queue, leases, notices, the Seal Engine's queue, inbound queues, the Store Arbiter, the Result record, vacating a
record, the departure of a destination, the withdrawal of a port, device reset. -/

namespace Sys2Proof.Machine

/-! ### One element of a register file -/

def State.setPiu (p : Port) (u : Piu) (s : State) : State := { s with pius := s.pius.set p u }
def State.setRec (n : ChainNo) (r : ChainRec) (s : State) : State := { s with recs := s.recs.set n r }
def State.setLease (n : ChainNo) (c : Lease) (s : State) : State := { s with leases := s.leases.set n c }
def State.setInq (p : Port) (q : InQueue) (s : State) : State := { s with inqs := s.inqs.set p q }
def State.setNotq (p : Port) (q : List Notice) (s : State) : State := { s with notqs := s.notqs.set p q }

/-! ### The store array (R18) -/

/-- The byte at a store address: an unlisted address reads 00h. -/
def Memory.read : Memory → Nat → Byte
  | [], _ => 0
  | (a, b) :: m, x => if x = a then b else Memory.read m x

/-- Writing one byte keeps the list canonical: addresses rising, no 00h listed. -/
def Memory.write : Memory → Nat → Byte → Memory
  | [], x, v => if v = 0 then [] else [(x, v)]
  | (a, b) :: m, x, v =>
    if x < a then (if v = 0 then (a, b) :: m else (x, v) :: (a, b) :: m)
    else if x = a then (if v = 0 then m else (x, v) :: m)
    else (a, b) :: Memory.write m x v

/-- The canonical form: addresses strictly rising, no entry equal to what an unlisted address reads as. -/
def Memory.wf : Memory → Bool
  | [] => true
  | [(_, b)] => b ≠ 0
  | (a, b) :: (a', b') :: m => a < a' && b ≠ 0 && Memory.wf ((a', b') :: m)

/-- Store address of byte 0 of the line that holds chain offset k (R18, R28, R56). -/
def lineBase (blocks : List Nat) (k : Nat) : Nat :=
  Config.blockBytes * blocks.getD (k / Config.blockBytes) 0 + Config.lineBytes * (k % Config.blockBytes / Config.lineBytes)

/-- Store address of chain offset k (R3). -/
def byteAddr (blocks : List Nat) (k : Nat) : Nat := lineBase blocks k + k % Config.lineBytes

/-- Writing the placed bytes of a line, the other bytes of the line keeping their values (R29). -/
def Memory.writeCells (m : Memory) (base : Nat) : List (Option Byte) → Memory
  | [] => m
  | none :: cs => Memory.writeCells m (base + 1) cs
  | some b :: cs => Memory.writeCells (Memory.write m base b) (base + 1) cs

/-- Reading a whole line (R30). -/
def Memory.readLine (m : Memory) (base : Nat) : Vector (Option Byte) 16 :=
  Vector.ofFn (fun i : Fin 16 => some (Memory.read m (base + i.val)))

/-! ### The Store Arbiter (R27) -/

/-- The fixed ring. -/
def ring : List Requester := [.piu 0, .piu 1, .piu 2, .piu 3, .sealEngine, .clearEngine]

/-- The requester is waiting for a line: a PIU with a grant request, a RUNNING Seal Engine that is not finishing
(R56), a CLEARING Clear Engine (R23). -/
def State.waiting (s : State) : Requester → Bool
  | .piu p => s.pius[p].staging.req ≠ .none
  | .sealEngine => (s.sealEng.map (fun r => !r.finishing)) == some true
  | .clearEngine => s.clearEng.isSome

/-- The ring from the requester after the position, round to the position itself. -/
def ringFrom (r : Requester) : List Requester :=
  (ring.dropWhile (· ≠ r)).drop 1 ++ ring.takeWhile (· ≠ r) ++ [r]

/-- The requester the arbiter grants next: the first waiting one after its position. -/
def State.nextGrant (s : State) : Option Requester := (ringFrom s.arbPos).find? s.waiting

/-! ### Leases (R104, R105) -/

/-- The counter a lease length puts in place: 0 gives NONE. -/
def Lease.ofLength (len : Nat) (g : Gen) : Lease := if len = 0 then .none else .running len g

/-- The lease length of a record by its state: the owner's owner lease, or the delivery lease (R105). -/
def leaseLength (c : Settings) : Life → Nat
  | .vacant => 0
  | .opened o _ => c.ownerLease o
  | .sealing o _ => c.ownerLease o
  | .sealed o _ _ => c.ownerLease o
  | .delivering _ _ _ => c.deliveryLease

/-- LU loads the counter of record n, from the record as it stands after the event. -/
def State.loadLease (n : ChainNo) (s : State) : State :=
  s.setLease n (Lease.ofLength (leaseLength s.committed s.recs[n].life) s.recs[n].gen)

/-- What the tick does to a chain lease counter (R106). -/
def Lease.tick : Lease → Lease
  | .none => .none
  | .running c g => if c ≤ 1 then .raised g else .running (c - 1) g
  | .raised g => .raised g

/-- What the tick does to the claim counter (R113). -/
def ClaimLease.tick : ClaimLease → ClaimLease
  | .none => .none
  | .running c => if c ≤ 1 then .raised else .running (c - 1)
  | .raised => .raised

/-- The lease remaining as Read Chain Info reports it (R104, R165). -/
def Lease.remaining : Lease → Nat
  | .none => 0
  | .running c _ => c
  | .raised _ => 0

/-! ### Notices (R90) -/

/-- The notice finds room: the addressed port is enabled and its queue holds fewer than 8. -/
def State.admits (s : State) (p : Port) : Bool := s.isEnabled p && s.notqs[p].length < Config.noticeDepth

/-- NU takes a notice addressed to port p: dropped at a disabled port, dropped with NOTICE_LOST at a full queue,
otherwise appended at the tail. -/
def State.offer (p : Port) (n : Notice) (s : State) : State :=
  { s with
    notqs := s.notqs.set p (if s.admits p then s.notqs[p] ++ [n] else s.notqs[p])
    edges := if s.admits p then s.edges else (s.raise .noticeLost p).edges }

/-! ### Allocation, release, charges (R21, R22, R116) -/

/-- BS takes an allocation request for k blocks: all of them, or none. -/
def State.allocate (k : Nat) (s : State) : Option (List Nat × State) :=
  if k ≤ s.free.length then some (s.free.take k, s.freeFalls (s.free.drop k)) else none

/-- BS takes a block list that CT hands back: to the Clear Queue under clear on release 1, to the Free List under 0.
An empty list changes neither. -/
def State.release (l : List Nat) (s : State) : State :=
  if l.isEmpty then s
  else if s.committed.clearOnRelease then { s with clearQ := s.clearQ ++ l }
  else s.freeRises (s.free ++ l)

/-- The charge of a port grows. -/
def State.charge (p : Port) (blocks chains : Nat) (s : State) : State :=
  { s with
    chBlocks := s.chBlocks.set p (s.chBlocks[p] + blocks)
    chChains := s.chChains.set p (s.chChains[p] + chains) }

/-- The charge of a port falls. -/
def State.discharge (p : Port) (blocks chains : Nat) (s : State) : State :=
  { s with
    chBlocks := s.chBlocks.set p (s.chBlocks[p] - blocks)
    chChains := s.chChains.set p (s.chChains[p] - chains) }

/-- CT takes blocks onto the tail of a record's list, charged to port p (R38, R44). -/
def State.grow (n : ChainNo) (p : Port) (bs : List Nat) (s : State) : State :=
  (s.setRec n { s.recs[n] with blocks := s.recs[n].blocks ++ bs }).charge p bs.length 0

/-! ### The Seal Queue and the Seal Engine (R55, R60) -/

/-- A run at its start; a chain of length 0 raises its completion at once (R55). -/
def SealRun.start (r : ChainRef) (len : Nat) : SealRun :=
  { ref := r, length := len, next := 0, reg := 0xFFFF, finishing := len = 0 }

/-- An IDLE engine with a chain waiting starts its run (R55). -/
def State.startRun (s : State) : State :=
  { s with
    sealQ := (match s.sealEng with | none => s.sealQ.tail | some _ => s.sealQ)
    sealEng := (match s.sealEng with
      | none => s.sealQ.head?.map (fun r => SealRun.start r s.recs[r.num].length)
      | some run => some run) }

/-- The run under the engine is of chain n. -/
def State.runs (s : State) (n : ChainNo) : Bool := (s.sealEng.map (fun r => r.ref.num)) == some n

/-- SE cancels the seal of chain n: its run is aborted and the next one starts, or its element leaves the queue
(R60). -/
def State.cancelSeal (n : ChainNo) (s : State) : State :=
  if s.runs n then { s with sealEng := none }.startRun
  else { s with sealQ := s.sealQ.filter (fun r => r.num ≠ n) }

/-! ### Check value (R57) -/

/-- One shift of the register. -/
def crcShift (r : Word) : Word := if r.msb then (r <<< 1) ^^^ 0x1021 else r <<< 1

/-- One byte into the register: combined into the upper eight bits, then eight shifts. -/
def crcByte (r : Word) (b : Byte) : Word :=
  let x := r ^^^ (b.setWidth 16 <<< 8)
  crcShift (crcShift (crcShift (crcShift (crcShift (crcShift (crcShift (crcShift x)))))))

/-- The check value of a chain's bytes. -/
def crc (l : List Byte) : Word := l.foldl crcByte 0xFFFF

/-! ### Inbound queues (R70, R72) -/

/-- An offset advances by one place of a queue of the given depth, returning to 0 past the last. -/
def advance (depth off : Nat) : Nat := if depth ≤ off + 1 then 0 else off + 1

/-- The lap count of an offset that advances. -/
def advanceLap (depth off : Nat) (lap : BitVec 8) : BitVec 8 := if depth ≤ off + 1 then lap + 1 else lap

/-- HU places an entry at the tail (R67, R70). -/
def InQueue.place (depth : Nat) (e : Entry) (q : InQueue) : InQueue :=
  { q with
    entries := q.entries ++ [e]
    posted := advance depth q.posted
    postedLap := advanceLap depth q.posted q.postedLap }

/-- A take removes the head (R70, R76). -/
def InQueue.remove (depth : Nat) (q : InQueue) : InQueue :=
  { q with
    entries := q.entries.tail
    taken := advance depth q.taken
    takenLap := advanceLap depth q.taken q.takenLap }

/-- The number of void entries (R69). -/
def InQueue.voids (q : InQueue) : Nat := (q.entries.filter (·.void)).length

/-- The number of live entries for a chain reference. -/
def InQueue.live (r : ChainRef) (q : InQueue) : Nat := (q.entries.filter (fun e => e.ref = r && !e.void)).length

/-- Every live entry for the chain reference becomes void where it stands (R72). -/
def InQueue.voidRef (r : ChainRef) (q : InQueue) : InQueue :=
  { q with entries := q.entries.map (fun e => if e.ref = r then { e with void := true } else e) }

/-- HU voids the entries for a chain reference in all four queues (R72). -/
def State.voidEntries (r : ChainRef) (s : State) : State := { s with inqs := s.inqs.map (InQueue.voidRef r) }

/-! ### Streams ended by a vacate (R31, R49) -/

/-- The stream ends REVOKED: its count stands, and the byte in the output shift stage becomes FFh. -/
def Stream.revoke (st : Stream) : Stream := { st with revoked := true, shift := st.shift.map (fun _ => 0xFF) }

/-- The PIU's stream is in progress on the chain reference: a stream whose last staging-line write is complete no
longer is (R29). -/
def Piu.streams (u : Piu) (r : ChainRef) : Bool := u.stream.any (fun st => st.ref = r && st.earned.isNone)

/-- A PIU whose stream's chain is vacated: the staging line is emptied and its grant request withdrawn. -/
def Piu.revoke (r : ChainRef) (u : Piu) : Piu :=
  { u with
    stream := if u.streams r then u.stream.map Stream.revoke else u.stream
    staging := if u.streams r then Staging.reset else u.staging }

/-- Every stream in progress on the chain reference ends, at any port. -/
def State.endStreams (r : ChainRef) (s : State) : State := { s with pius := s.pius.map (Piu.revoke r) }

/-! ### Vacating a record (R9) -/

/-- The charge of a record's charged port falls by its blocks and by one chain (R120). -/
def State.uncharge (r : ChainRec) (s : State) : State :=
  match r.life.charged with
  | none => s
  | some q => s.discharge q r.blocks.length 1

/-- Step 5 of R9: only a SEALING record has a seal to cancel. -/
def State.cancelIfSealing (n : ChainNo) (s : State) : State :=
  if s.recs[n].life.phase = .sealing then s.cancelSeal n else s

/-- The record becomes VACANT under the next generation: the eight steps of R9, step 8 and step 1 together. -/
def State.vacate (n : ChainNo) (s : State) : State :=
  let r := s.recs[n]
  (((((((s.release r.blocks).uncharge r).setLease n .none).cancelIfSealing n).endStreams ⟨n, r.gen⟩).voidEntries
    ⟨n, r.gen⟩)).setRec n { gen := r.gen + 1, life := .vacant, length := 0, blocks := [] }

/-! ### Departures (R78, R79) -/

/-- A destination leaves both sets and is counted (R78). -/
def Delivery.leave (p : Port) (d : Delivery) : Departure → Delivery
  | .accepted => { d with pend := without d.pend p, hold := without d.hold p, accepted := d.accepted + 1 }
  | .refused => { d with pend := without d.pend p, hold := without d.hold p, refused := d.refused + 1 }
  | .withdrawn => { d with pend := without d.pend p, hold := without d.hold p, withdrawn := d.withdrawn + 1 }

/-- No participant is left. -/
def Delivery.finished (d : Delivery) : Bool := d.pend = 0 && d.hold = 0

/-- The CONSUMED notice of a delivery (R79, R94). -/
def Delivery.consumed (d : Delivery) (r : ChainRef) (tag : Word) : Notice :=
  .consumed r tag d.accepted d.refused d.withdrawn (card d.dests)

/-- The last participant has left: CONSUMED to the origin, then the vacate (R79). -/
def State.endDelivery (n : ChainNo) (d : Delivery) (tag : Word) (s : State) : State :=
  (s.offer d.origin (d.consumed ⟨n, s.recs[n].gen⟩ tag)).vacate n

/-- A destination departs from a DELIVERING record; the departure that leaves both sets empty ends the delivery. -/
def State.depart (p : Port) (how : Departure) (n : ChainNo) (s : State) : State :=
  match s.recs[n].life with
  | .delivering d l k =>
    let d' := d.leave p how
    let s' := s.setRec n { s.recs[n] with life := .delivering d' l k }
    if d'.finished then s'.endDelivery n d' l.tag else s'
  | .vacant | .opened _ _ | .sealing _ _ | .sealed _ _ _ => s

/-! ### Expiry (R109) -/

/-- The notices of an expiry, from the record as it stands: EXPIRED, and REVOKED to each holder (R95, R96). -/
def State.expiryNotices (n : ChainNo) (s : State) : State :=
  let r := s.recs[n]
  let ref : ChainRef := ⟨n, r.gen⟩
  match r.life with
  | .vacant => s
  | .opened o l => s.offer o (.expired ref l.tag .opened 0 0)
  | .sealing o l => s.offer o (.expired ref l.tag .sealing 0 0)
  | .sealed o l _ => s.offer o (.expired ref l.tag .sealed 0 0)
  | .delivering d l _ =>
    (ports.filter (inSet d.hold)).foldl (fun t p => t.offer p (.revoked ref l.tag d.origin))
      (s.offer d.origin (.expired ref l.tag .delivering (card d.pend) (card d.hold)))

/-- CT takes an expiry that acts: its notices, then the vacate. -/
def State.expire (n : ChainNo) (s : State) : State := (s.expiryNotices n).vacate n

/-! ### The Result record (R159) -/

/-- An outcome is recorded: the sequence rises by 1, the other fields are replaced together. -/
def State.record (p : Port) (command : Byte) (e : Ending) (s : State) : State :=
  s.setPiu p { s.pius[p] with result := { seq := s.pius[p].result.seq + 1, command := command, ending := e } }

/-! ### Withdrawal of a port (R145 to R150) -/

/-- Why a port is withdrawn (R145). -/
def portResetResult : ResultRec := { seq := 0, command := 0x5F, ending := ⟨.ok, 0, 0⟩ }

/-- The Result record a commit that disables the port leaves (R150). -/
def disabledResult : ResultRec := { seq := 0, command := 0x42, ending := ⟨.disabled, 0, 0⟩ }

/-- A body whose command was taken before the withdrawal is ended; a query goes on outputting its copy, and an action
has not been taken (R150). -/
def Body.stop : Body → Body
  | .await => .await
  | .copy bytes again => .copy bytes again
  | .inbound _ _ => .ended
  | .notice _ _ => .ended
  | .streaming => .ended
  | .refused _ => .ended
  | .ended => .ended

/-- The transaction state across a withdrawal of its port (R150). -/
def Link.withdraw : Link → Link
  | .deselected => .deselected
  | .command => .command
  | .operand c ops => .operand c ops
  | .body c ops b => .body c ops b.stop
  | .ignoring x => .ignoring x

/-- The PIU of a withdrawn port (R150). A stream in progress is over without an outcome (R51); one that has earned its
outcome keeps it for the recording (R29), and one that a vacate ended after its select rise, its REVOKED not yet recorded
(R49), is over without an outcome. Both are the model's choice (log entry 29). -/
def Piu.withdraw (result : ResultRec) (u : Piu) : Piu :=
  { u with
    result := result
    staging := Staging.reset
    stream := u.stream.filter (fun st => st.earned.isSome)
    link := u.link.withdraw }

/-- The port owns the record, or is one of its participants (R146, R147). -/
def Life.touches (l : Life) (p : Port) : Bool := l.hasRole p .owner || l.hasRole p .pending || l.hasRole p .holder

/-- Insertion by rising key. -/
def insertByKey {α : Type} (key : α → Nat) (x : α) : List α → List α
  | [] => [x]
  | y :: l => if key x ≤ key y then x :: y :: l else y :: insertByKey key x l

/-- A list in the order of its keys. -/
def orderBy {α : Type} (key : α → Nat) (l : List α) : List α := l.foldr (insertByKey key) []

/-- The chains a withdrawal of p reaches, in the order in which CT takes them: that order is not fixed (R145), so it
is a free value. -/
def State.withdrawOrder (p : Port) (s : State) : List ChainNo :=
  orderBy (fun n => Config.chainTakeKey s.fresh n.val) ((List.finRange 64).filter (fun n => s.recs[n].life.touches p))

/-- What a withdrawal does to one chain: a chain the port owns is vacated without notice, a participant departs
(R146, R147). -/
def State.withdrawFrom (p : Port) (s : State) (n : ChainNo) : State :=
  if s.recs[n].life.hasRole p .owner then s.vacate n else s.depart p .withdrawn n

/-- What a withdrawal does to the port's own state in HU, NU, AU, SU, LU and its PIU (R149, R150). -/
def State.stripPort (p : Port) (result : ResultRec) (s : State) : State :=
  { s with
    inqs := s.inqs.set p InQueue.reset
    notqs := s.notqs.set p []
    edges := s.edges.set p 0
    enables := s.enables.set p 0
    claim := if s.claim.map (·.holder) = some p then none else s.claim
    claimLease := if s.claim.map (·.holder) = some p then .none else s.claimLease
    pius := s.pius.set p (s.pius[p].withdraw result)
    fresh := s.fresh + 1 }

/-- The withdrawal of port p, whole (R145). -/
def State.withdraw (p : Port) (result : ResultRec) (s : State) : State :=
  ((s.withdrawOrder p).foldl (State.withdrawFrom p) s).stripPort p result

/-! ### Device reset (R5, R32, R155) -/

/-- Every block returns to its device-reset value. The input pins keep the levels the outside drives (log entry 4), a
transaction open across the reset is held until its select rise (R155), the queue and the store's bytes stay
(log entries 1, 6). -/
def State.deviceReset (resetn : Bool) (s : State) : State :=
  { State.reset with
    resetn := resetn
    store := s.store
    pius := s.pius.map (fun u => { Piu.reset with sel := u.sel })
    pending := s.pending
    fresh := s.fresh }

end Sys2Proof.Machine
end

