-- ==== Sys2Proof/Machine/Link.lean ====
section
/-! DEFINITION. The port link: the transaction state of a PIU (R154, R155), the output PnDO, the shared course of a
link command by its beats (R156), the link checks (R151) and the chain checks (R11 to R13), and the rows SELECT_RISE,
FRAMING and UNKNOWN_COMMAND. SELECT_FALL, with the clock's edges, stands in BitLink.lean. -/

namespace Sys2Proof.Machine

/-! ### Transaction state -/

def State.setWire (p : Port) (w : Wire) (s : State) : State := s.setPiu p { s.pius[p] with wire := w }

/-- A byte that changes nothing else has crossed the link. -/
def State.byteEnd (p : Port) (s : State) : State := s.setWire p Wire.idle

/-- A byte has crossed the link and left it in this transaction state. -/
def State.setLink (p : Port) (l : Link) (s : State) : State :=
  s.setPiu p { s.pius[p] with link := l, wire := Wire.idle }

/-- Part of a byte has been sampled. -/
def State.midByte (s : State) (p : Port) : Bool := !s.pius[p].wire.bits.isEmpty

/-- PnSEL rises: the PIU returns to DESELECTED (R155), and the byte in transit is dropped (R36). -/
def State.deselect (p : Port) (s : State) : State :=
  s.setPiu p { s.pius[p] with sel := false, link := .deselected, wire := Wire.idle, early := false }

/-- The byte BODY is driving out (R154, R75, R98, R46). -/
def Body.outByte (st : Option Stream) : Body → Byte
  | .await => 0xFF
  | .copy bytes _ => bytes.headD 0xFF
  | .inbound f n => ((f.map Entry.bytes).getD []).getD n 0xFF
  | .notice f n => ((f.map Notice.bytes).getD []).getD n 0xFF
  | .streaming => (st.bind (·.shift)).getD 0xFF
  | .refused _ => 0xFF
  | .ended => 0xFF

/-- The byte PnDO is driving, none while it is high-impedance (R154, R158, R161). -/
def State.pnDO (s : State) (p : Port) : Option Byte :=
  if !s.pius[p].sel then none
  else match s.pius[p].link with
    | .deselected => none
    | .command => none
    | .operand _ _ => some 0xFF
    | .body _ _ b => some (b.outByte s.pius[p].stream)
    | .ignoring _ => if s.pius[p].early then none else some 0xFF

/-- The level on PnDO, none while it is high-impedance: what the last clock edge left there, or, after a byte given
whole, the first bit of the byte that follows (R154, log entry 18). -/
def State.pnDOLevel (s : State) (p : Port) : Option Bool :=
  if !s.pius[p].sel then none
  else match s.pius[p].wire.out with
    | some level => level
    | none => (s.pnDO p).map (·.getLsbD 7)

/-- One whole byte crosses the link in BODY: the byte driven is delivered, the next follows. A finished copy repeats
the record Read Result holds (R160), any other is followed by FFh. Delivered bytes of a fixed entry or notice are
counted up to its size. -/
def Body.pass : Body → Body
  | .await => .await
  | .copy [] again => .copy [] again
  | .copy (_ :: bs) again => .copy (if bs.isEmpty then again else bs) again
  | .inbound f n => .inbound f (if f.isSome && n < 8 then n + 1 else n)
  | .notice f n => .notice f (if f.isSome && n < 10 then n + 1 else n)
  | .streaming => .streaming
  | .refused e => .refused e
  | .ended => .ended

/-! ### Link checks and chain checks -/

/-- The outcome of a command refused because its port is disabled (R151). -/
def State.disabledEnding (s : State) : Ending := ⟨.disabled, s.committed.enableMask.setWidth 16, 0⟩

/-- The state code of a record as an outcome value (R13). -/
def ChainRec.stateWord (r : ChainRec) : Word := w16 r.life.phase.code

/-- The checks of R11 and R12 on a command that names a chain, with the values of R13. -/
def State.chainCheck (c : Cmd) (p : Port) (ops : List Byte) (s : State) : Except Ending ChainNo :=
  match parseRef (opByte ops 0) (opByte ops 1) with
  | none => .error ⟨.range, 0, 0⟩
  | some ref =>
    let r := s.recs[ref.num]
    if r.life.phase = .vacant || r.gen ≠ ref.gen then .error ⟨.stale, r.gen.setWidth 16, r.stateWord⟩
    else if ((roleRows c).filter (fun row => r.life.hasRole p row.1)).isEmpty then .error ⟨.notYours, r.stateWord, 0⟩
    else if ((roleRows c).filter (fun row => r.life.hasRole p row.1)).any (fun row => row.2.contains r.life.phase) then
      .ok ref.num
    else .error ⟨.wrongState, r.stateWord, 0⟩

/-! ### The course of a link command (R155, R156) -/

/-- The command byte of c becomes whole. While the transaction counts as received during INITIALIZING every command
but Identify is ignored (R161). A command without operands is taken, or waits, at once. -/
def codeWhole (c : Cmd) (p : Port) (enter : List Byte → State → State) (s : State) : Answer :=
  if s.pius[p].early && c ≠ .identify then .next (s.setLink p (.ignoring c.code))
  else if s.pius[p].stream.isSome then .fault .closePending
  else if c.operandCount = 0 then .next (enter [] s)
  else .next (s.setLink p (.operand c []))

/-- An operand byte of c becomes whole; the last one brings the PIU to BODY. -/
def operandWhole (c : Cmd) (p : Port) (ops : List Byte) (x : Byte) (enter : List Byte → State → State) (s : State) :
    Answer :=
  if (ops ++ [x]).length < c.operandCount then .next (s.setLink p (.operand c (ops ++ [x])))
  else .next (enter (ops ++ [x]) s)

/-- Select rises in BODY: an ended command records nothing (R150), a refused one its refusal (R151); otherwise the
command's own close follows, on the port already deselected. -/
def bodyRise (c : Cmd) (p : Port) (ops : List Byte) (b : Body) (close : List Byte → Body → State → State) (s : State) :
    State :=
  match b with
  | .ended => s.deselect p
  | .refused e => (s.deselect p).record p c.code e
  | .await => close ops .await (s.deselect p)
  | .copy bytes again => close ops (.copy bytes again) (s.deselect p)
  | .inbound f n => close ops (.inbound f n) (s.deselect p)
  | .notice f n => close ops (.notice f n) (s.deselect p)
  | .streaming => close ops .streaming (s.deselect p)

/-- A transaction received while INITIALIZING, or left open across a device reset: its bytes are ignored and its
select rise records nothing (R155, R161). -/
def ignoredBeat (p : Port) (b : Beat) (s : State) : Answer :=
  match b with
  | .rise => .next (s.deselect p)
  | .code => .next s
  | .operand _ => .next s
  | .pass => .next s

/-- The course of command c at port p: `enter` is what happens when its operands are whole, `close` what happens at
select rise. At a port whose PnSEL is high nothing happens (R154, R155). -/
def linkBeat (c : Cmd) (p : Port) (b : Beat) (enter : List Byte → State → State)
    (close : List Byte → Body → State → State) (s : State) : Answer :=
  if !beatOk c b then .refused .illFormed
  else if !s.pius[p].sel then .next s
  else if b ≠ .rise && s.midByte p then .fault .linkPhase
  else match s.pius[p].link with
    | .deselected => ignoredBeat p b s
    | .ignoring _ => if s.pius[p].early then ignoredBeat p b s else .fault .linkPhase
    | .command =>
      match b with
      | .code => codeWhole c p enter s
      | .operand _ => .fault .linkPhase
      | .pass => .fault .linkPhase
      | .rise => .fault .linkPhase
    | .operand c' ops =>
      match b with
      | .operand x => if c' = c then operandWhole c p ops x enter s else .fault .linkPhase
      | .code => .fault .linkPhase
      | .pass => .fault .linkPhase
      | .rise => .fault .linkPhase
    | .body c' ops body =>
      match b with
      | .pass => if c' = c then .next (s.setLink p (.body c ops body.pass)) else .fault .linkPhase
      | .rise => if c' = c then .next (bodyRise c p ops body close s) else .fault .linkPhase
      | .code => .fault .linkPhase
      | .operand _ => .fault .linkPhase

/-- A query (R156): its copy is made when its operands are whole. A disabled port is refused, but for the queries
that every port answers (`always`, R151). It records nothing. -/
def queryBeat (c : Cmd) (p : Port) (b : Beat) (always : Bool) (copy : List Byte → State → List Byte × List Byte)
    (s : State) : Answer :=
  linkBeat c p b
    (fun ops t =>
      if always || t.isEnabled p then t.setLink p (.body c ops (.copy (copy ops t).1 (copy ops t).2))
      else t.setLink p (.body c ops (.refused t.disabledEnding)))
    (fun _ _ t => t) s

/-- An action (R156): it waits in BODY and is taken at select rise, after the link check of R151. -/
def actionBeat (c : Cmd) (p : Port) (b : Beat) (act : List Byte → State → State) (s : State) : Answer :=
  linkBeat c p b
    (fun ops t => t.setLink p (.body c ops .await))
    (fun ops _ t => if t.isEnabled p then act ops t else t.record p c.code t.disabledEnding) s

/-- An action whose effect answers the state and its outcome, which is then recorded (R156, R159). -/
def recordedBeat (c : Cmd) (p : Port) (b : Beat) (act : List Byte → State → State × Ending) (s : State) : Answer :=
  actionBeat c p b (fun ops t => (act ops t).1.record p c.code (act ops t).2) s

/-- An action on a chain: the checks of R11 and R12 come before its own (section 1.5). -/
def chainBeat (c : Cmd) (p : Port) (b : Beat) (act : ChainNo → List Byte → State → State × Ending) (s : State) :
    Answer :=
  recordedBeat c p b
    (fun ops t => match t.chainCheck c p ops with
      | .error e => (t, e)
      | .ok n => act n ops t) s

/-- An action with output (R156): the record is fixed when the command byte is whole, the take decided at select
rise; a disabled port is refused when the command byte is whole (R151). -/
def takeBeat (c : Cmd) (p : Port) (b : Beat) (fixed : State → Body) (decide : Body → State → State × Ending)
    (s : State) : Answer :=
  linkBeat c p b
    (fun ops t =>
      if t.isEnabled p then t.setLink p (.body c ops (fixed t))
      else t.setLink p (.body c ops (.refused t.disabledEnding)))
    (fun _ body t => (decide body t).1.record p c.code (decide body t).2) s

/-! ### The link's own rows -/

/-- SELECT_RISE (R155): PnSEL rises on a transaction that records no outcome: no bit sampled, a query answered, a
command ended by a withdrawal, or a transaction ignored. -/
def execSelectRise (p : Port) (s : State) : Answer :=
  if !s.pius[p].sel then .next s
  else match s.pius[p].link with
    | .deselected => .next (s.deselect p)
    | .command => if !s.pius[p].early && s.midByte p then .fault .linkPhase else .next (s.deselect p)
    | .operand _ _ => .fault .linkPhase
    | .body _ _ (.copy _ _) => .next (s.deselect p)
    | .body _ _ .ended => .next (s.deselect p)
    | .body _ _ .await => .fault .linkPhase
    | .body _ _ (.inbound _ _) => .fault .linkPhase
    | .body _ _ (.notice _ _) => .fault .linkPhase
    | .body _ _ .streaming => .fault .linkPhase
    | .body _ _ (.refused _) => .fault .linkPhase
    | .ignoring _ => if s.pius[p].early then .next (s.deselect p) else .fault .linkPhase

/-- A link error is recorded at select rise and raises LINK_ERROR at an enabled port (R127, R157, R158). -/
def State.linkError (p : Port) (command : Byte) (e : Ending) (s : State) : State :=
  ((s.deselect p).record p command e).raise .linkError p

/-- The bits sampled of the byte in transit: those that edges gave, and those that FRAMING adds. -/
def State.bitsSampled (s : State) (p : Port) (bits : Fin 8) : Nat := s.pius[p].wire.bits.length + bits.val

/-- FRAMING (R157): PnSEL rises with 1 to 7 bits of the command byte sampled, or with operand bytes missing. With no
bit sampled, or in a transaction received while INITIALIZING (R161), nothing is recorded. Eight bits would be a whole
byte. -/
def execFraming (p : Port) (bits : Fin 8) (s : State) : Answer :=
  if !s.pius[p].sel then .next s
  else if 8 ≤ s.bitsSampled p bits then .fault .linkPhase
  else match s.pius[p].link with
    | .deselected => .next (s.deselect p)
    | .command =>
      if s.pius[p].early || s.bitsSampled p bits = 0 then .next (s.deselect p)
      else .next (s.linkError p 0 ⟨.framing, 0, 0⟩)
    | .operand c ops => .next (s.linkError p c.code ⟨.framing, w16 ops.length, w16 c.operandCount⟩)
    | .body _ _ _ => .fault .linkPhase
    | .ignoring _ => if s.pius[p].early then .next (s.deselect p) else .fault .linkPhase

/-- UNKNOWN_COMMAND (R158): an undefined code moves the PIU to IGNORING; every later byte is ignored; at select rise
the outcome is recorded with the code received. -/
def execUnknownCommand (p : Port) (b : UnknownBeat) (s : State) : Answer :=
  if !unknownBeatOk b then .refused .illFormed
  else if !s.pius[p].sel then .next s
  else if b ≠ .rise && s.midByte p then .fault .linkPhase
  else match s.pius[p].link with
    | .deselected => (match b with | .rise => .next (s.deselect p) | .code _ => .next s | .pass => .next s)
    | .command =>
      match b with
      | .code x =>
        if !s.pius[p].early && s.pius[p].stream.isSome then .fault .closePending
        else .next (s.setLink p (.ignoring x))
      | .pass => .fault .linkPhase
      | .rise => .fault .linkPhase
    | .ignoring x =>
      match b with
      | .code _ => if s.pius[p].early then .next s else .fault .linkPhase
      | .pass => if s.pius[p].early then .next s else .next (s.byteEnd p)
      | .rise => if s.pius[p].early then .next (s.deselect p) else .next (s.linkError p x ⟨.unknownCommand, 0, 0⟩)
    | .operand _ _ => .fault .linkPhase
    | .body _ _ _ => .fault .linkPhase

end Sys2Proof.Machine
end

