-- ==== Sys2Proof/Machine/AttentionUnit.lean ====
section
/-! DEFINITION. Set Enables and Acknowledge Attention (sections 9.5, 9.6). Requests, top reason and ATN line are
computed in Flags. -/

namespace Sys2Proof.Machine

/-- The six enable flags of a port are replaced (R130). -/
def State.setEnables (p : Port) (m : ReasonMask) (s : State) : State := { s with enables := s.enables.set p m }

/-- The named edge requests of a port are cleared; level bits are ignored (R131). -/
def State.acknowledge (p : Port) (m : ReasonMask) (s : State) : State :=
  { s with edges := s.edges.set p (s.edges[p] &&& ~~~ m) }

/-- Set Enables (R130). -/
def setEnables (p : Port) (m : Byte) (s : State) : State × Ending :=
  if 64 ≤ m.toNat then (s, ⟨.range, 0, 0⟩)
  else (s.setEnables p (m.setWidth 6), ⟨.ok, m.setWidth 16, (s.requests p).setWidth 16⟩)

/-- SET_ENABLES (R130). -/
def execSetEnables (p : Port) (b : Beat) (s : State) : Answer :=
  recordedBeat .setEnables p b (fun ops t => setEnables p (opByte ops 0) t) s

/-- Acknowledge Attention (R131). -/
def acknowledgeAttention (p : Port) (m : Byte) (s : State) : State × Ending :=
  if 64 ≤ m.toNat then (s, ⟨.range, 0, 0⟩)
  else (s.acknowledge p (m.setWidth 6),
    ⟨.ok, (s.edges[p] &&& edgeMask &&& m.setWidth 6).setWidth 16,
      ((s.acknowledge p (m.setWidth 6)).requests p).setWidth 16⟩)

/-- ACKNOWLEDGE_ATTENTION (R131). -/
def execAcknowledgeAttention (p : Port) (b : Beat) (s : State) : Answer :=
  recordedBeat .acknowledgeAttention p b (fun ops t => acknowledgeAttention p (opByte ops 0) t) s

end Sys2Proof.Machine
end

