-- ==== Sys2Proof/Machine/Chains.lean ====
section
/-! DEFINITION. The actions that belong to a chain record or its growth and lease: Open Chain, Discard Chain
(chapter 1), Extend Chain (chapter 3), Renew Lease (chapter 7). -/

namespace Sys2Proof.Machine

/-- The lowest-numbered VACANT record (R14). -/
def State.lowestVacant (s : State) : Option ChainNo := (List.finRange 64).find? (fun n => s.recs[n].life.phase = .vacant)

/-- The record Open Chain sets up (R15). -/
def State.openAt (n : ChainNo) (p : Port) (tag : Word) (s : State) : State :=
  ((s.setRec n { gen := s.recs[n].gen, life := .opened p ⟨tag, 0⟩, length := 0, blocks := [] }).charge p 0 1).loadLease n

/-- Open Chain: the chain quota, then the record supply (R15). -/
def openChain (p : Port) (tag : Word) (s : State) : State × Ending :=
  if s.committed.chainQuota p ≤ s.chChains[p] then
    (s, ⟨.quotaChains, w16 s.chChains[p], w16 (s.committed.chainQuota p)⟩)
  else match s.lowestVacant with
    | none => (s, ⟨.noRecord, 0, 0⟩)
    | some n => (s.openAt n p tag, ⟨.ok, w16 n.val, s.recs[n].gen.setWidth 16⟩)

/-- OPEN_CHAIN (R14, R15). -/
def execOpenChain (p : Port) (b : Beat) (s : State) : Answer :=
  recordedBeat .openChain p b (fun ops t => openChain p (opWord ops 0) t) s

/-- Discard Chain: the vacate, without a notice (R16). -/
def discardChain (n : ChainNo) (s : State) : State × Ending := (s.vacate n, ⟨.ok, w16 s.recs[n].blocks.length, 0⟩)

/-- DISCARD_CHAIN (R16). -/
def execDiscardChain (p : Port) (b : Beat) (s : State) : Answer :=
  chainBeat .discardChain p b (fun n _ t => discardChain n t) s

/-- Blocks a length needs (R3). -/
def blocksFor (len : Nat) : Nat := (len + (Config.blockBytes - 1)) / Config.blockBytes

/-- A record takes its new length and its lease is loaded: the end of an accepted Extend Chain (R44). -/
def State.lengthen (n : ChainNo) (len : Nat) (s : State) : State :=
  (s.setRec n { s.recs[n] with length := len }).loadLease n

/-- Extend Chain: the four checks of R43 in order, then R44 as one event. -/
def extendChain (p : Port) (n : ChainNo) (count : Word) (s : State) : State × Ending :=
  let r := s.recs[n]
  let len := r.length + count.toNat
  let k := blocksFor len - blocksFor r.length
  if count.toNat < 1 || Config.chainBytes < count.toNat then (s, ⟨.range, 0, 0⟩)
  else if Config.chainBytes < len then (s, ⟨.tooLong, w16 r.length, count⟩)
  else if k = 0 then (s.lengthen n len, ⟨.ok, w16 len, 0⟩)
  else if s.committed.blockQuota p < s.chBlocks[p] + k then
    (s, ⟨.quotaBlocks, w16 s.chBlocks[p], w16 (s.committed.blockQuota p)⟩)
  else match s.allocate k with
    | none => (s, ⟨.noBlock, w16 s.free.length, w16 k⟩)
    | some (bs, t) => ((t.grow n p bs).lengthen n len, ⟨.ok, w16 len, w16 k⟩)

/-- EXTEND_CHAIN (R43, R44). -/
def execExtendChain (p : Port) (b : Beat) (s : State) : Answer :=
  chainBeat .extendChain p b (fun n ops t => extendChain p n (opWord ops 2) t) s

/-- Renew Lease: the counter is loaded by the record's state (R108). -/
def renewLease (n : ChainNo) (s : State) : State × Ending :=
  (s.loadLease n, ⟨.ok, w16 (leaseLength s.committed s.recs[n].life), s.recs[n].stateWord⟩)

/-- RENEW_LEASE (R108). -/
def execRenewLease (p : Port) (b : Beat) (s : State) : Answer :=
  chainBeat .renewLease p b (fun n _ t => renewLease n t) s

end Sys2Proof.Machine
end

