-- ==== Sys2Proof/Machine/HandOff.lean ====
section
/-! DEFINITION. Hand-off and inbound queues (chapter 5): Hand Chain, Take Inbound, Release Chain, Adopt Chain, Recall
Chain. -/

namespace Sys2Proof.Machine

/-! ### Hand Chain (R65 to R67) -/

/-- The mask fails check 1 of R65: empty, an upper bit set, or the handing port named. -/
def maskInvalid (p : Port) (mask : Byte) : Bool := mask = 0 || mask.toNat ≥ 16 || inSet (mask.setWidth 4) p

/-- The lowest-numbered port of a set that is disabled (check 2 of R65). -/
def State.firstDisabled (s : State) (dests : PortSet) : Option Port :=
  ports.find? (fun q => inSet dests q && !s.isEnabled q)

/-- The lowest-numbered port of a set whose inbound queue is full, void entries included (check 3 of R65). -/
def State.firstFull (s : State) (dests : PortSet) : Option Port :=
  ports.find? (fun q => inSet dests q && s.committed.depth q ≤ s.inqs[q].entries.length)

/-- HU places the entry at the tail of each destination's queue, in ascending port order (R67). -/
def State.placeEntries (dests : PortSet) (e : Entry) (s : State) : State :=
  { s with inqs := Vector.ofFn (fun q : Port =>
      if inSet dests q then s.inqs[q].place (s.committed.depth q) e else s.inqs[q]) }

/-- The delivery of a chain just handed (R66). -/
def Delivery.start (origin : Port) (dests : PortSet) : Delivery :=
  { origin := origin, dests := dests, pend := dests, hold := 0, accepted := 0, refused := 0, withdrawn := 0 }

/-- The record becomes DELIVERING, the delivery lease is loaded and the entries are placed (R66, R67). -/
def State.hand (n : ChainNo) (p : Port) (dests : PortSet) (l : Label) (check : Word) (s : State) : State :=
  ((s.setRec n { s.recs[n] with life := .delivering (Delivery.start p dests) l check }).loadLease n).placeEntries dests
    { ref := ⟨n, s.recs[n].gen⟩, origin := p, hops := l.hops, tag := l.tag, length := s.recs[n].length, void := false }

/-- Hand Chain: the three checks of R65 in order. -/
def handChain (p : Port) (n : ChainNo) (mask : Byte) (s : State) : State × Ending :=
  let dests : PortSet := mask.setWidth 4
  if maskInvalid p mask then (s, ⟨.destInvalid, mask.setWidth 16, 0⟩)
  else match s.firstDisabled dests with
    | some q => (s, ⟨.destDisabled, w16 q.val, s.committed.enableMask.setWidth 16⟩)
    | none =>
      match s.firstFull dests with
      | some q => (s, ⟨.queueFull, w16 q.val, w16 (s.committed.depth q)⟩)
      | none =>
        (s.hand n p dests (s.recs[n].life.label.getD ⟨0, 0⟩) (s.recs[n].life.check.getD 0),
          ⟨.ok, w16 (card dests), mask.setWidth 16⟩)

/-- HAND_CHAIN (R65 to R67). -/
def execHandChain (p : Port) (b : Beat) (s : State) : Answer :=
  chainBeat .handChain p b (fun n ops t => handChain p n (opByte ops 2) t) s

/-! ### Take Inbound (R75, R76) -/

/-- CT moves a port from pending to holder and the delivery lease is loaded (R76). -/
def State.takeLive (p : Port) (ref : ChainRef) (s : State) : State :=
  let r := s.recs[ref.num]
  match r.life with
  | .delivering d l k =>
    if r.gen = ref.gen then
      (s.setRec ref.num { r with
        life := .delivering { d with pend := without d.pend p, hold := withPort d.hold p } l k }).loadLease ref.num
    else s
  | .vacant => s
  | .opened _ _ => s
  | .sealing _ _ => s
  | .sealed _ _ _ => s

/-- A take whose 8 bytes were delivered removes the head entry, live or void as it then stands (R76, R77). -/
def takeHead (p : Port) (e : Entry) (s : State) : State × Ending :=
  let t := s.setInq p (s.inqs[p].remove (s.committed.depth p))
  if e.void then (t, ⟨.void, refWord e.ref, w16 t.inqs[p].entries.length⟩)
  else (t.takeLive p e.ref, ⟨.ok, refWord e.ref, w16 t.inqs[p].entries.length⟩)

/-- HU decides the take at select rise, against the fixed entry and the queue as they then stand (R76). -/
def takeInbound (p : Port) (body : Body) (s : State) : State × Ending :=
  match body with
  | .inbound (some _) delivered =>
    if delivered < 8 then (s, ⟨.incomplete, w16 delivered, w16 s.inqs[p].entries.length⟩)
    else match s.inqs[p].entries.head? with
      | some e => takeHead p e s
      | none => (s, ⟨.empty, 0, 0⟩)
  | .inbound none _ => (s, ⟨.empty, 0, 0⟩)
  | .await => (s, ⟨.empty, 0, 0⟩)
  | .copy _ _ => (s, ⟨.empty, 0, 0⟩)
  | .notice _ _ => (s, ⟨.empty, 0, 0⟩)
  | .streaming => (s, ⟨.empty, 0, 0⟩)
  | .refused _ => (s, ⟨.empty, 0, 0⟩)
  | .ended => (s, ⟨.empty, 0, 0⟩)

/-- TAKE_INBOUND (R75, R76). -/
def execTakeInbound (p : Port) (b : Beat) (s : State) : Answer :=
  takeBeat .takeInbound p b (fun t => .inbound t.inqs[p].entries.head? 0) (takeInbound p) s

/-! ### Release Chain (R81) -/

/-- The participants left, pending and holders together. -/
def Delivery.left (d : Delivery) : Nat := card d.pend + card d.hold

/-- The disposition of a Release Chain. -/
def disposition (x : Byte) : Option Departure := if x = 0 then some .accepted else if x = 1 then some .refused else none

/-- A departure that leaves a participant loads the delivery lease (R81); one that vacates the record does not. -/
def State.releaseBy (p : Port) (how : Departure) (n : ChainNo) (isLast : Bool) (s : State) : State :=
  if isLast then s.depart p how n else (s.depart p how n).loadLease n

/-- Release Chain (R81). -/
def releaseChain (p : Port) (n : ChainNo) (x : Byte) (s : State) : State × Ending :=
  match disposition x, s.recs[n].life.delivery with
  | none, _ => (s, ⟨.range, 0, 0⟩)
  | some how, some d =>
    (s.releaseBy p how n (d.leave p how).finished,
      ⟨.ok, w16 (d.leave p how).left, if (d.leave p how).finished then 1 else 0⟩)
  | some _, none => (s, ⟨.range, 0, 0⟩)

/-- RELEASE_CHAIN (R81). -/
def execReleaseChain (p : Port) (b : Beat) (s : State) : Answer :=
  chainBeat .releaseChain p b (fun n ops t => releaseChain p n (opByte ops 2) t) s

/-! ### Adopt Chain (R83, R84) -/

/-- The adoption as one event (R84): CONSUMED to the origin, the charge moved, SEALED under the adopter with hops
raised by 1, the adopter's owner lease loaded. -/
def State.adopt (n : ChainNo) (p : Port) (d : Delivery) (l : Label) (check : Word) (s : State) : State :=
  let r := s.recs[n]
  (((((s.offer d.origin ((d.leave p .accepted).consumed ⟨n, r.gen⟩ l.tag)).discharge d.origin r.blocks.length 1).charge
    p r.blocks.length 1).setRec n { r with life := .sealed p ⟨l.tag, l.hops + 1⟩ check }).loadLease n)

/-- Adopt Chain: the four checks of R83 in order. -/
def adoptChain (p : Port) (n : ChainNo) (s : State) : State × Ending :=
  match s.recs[n].life with
  | .delivering d l k =>
    if d.hold ≠ only p || d.pend ≠ 0 then (s, ⟨.notSole, w16 (card d.hold), w16 (card d.pend)⟩)
    else if l.hops = 7 then (s, ⟨.hops, 7, 0⟩)
    else if s.committed.chainQuota p ≤ s.chChains[p] then
      (s, ⟨.quotaChains, w16 s.chChains[p], w16 (s.committed.chainQuota p)⟩)
    else if s.committed.blockQuota p < s.chBlocks[p] + s.recs[n].blocks.length then
      (s, ⟨.quotaBlocks, w16 s.chBlocks[p], w16 (s.committed.blockQuota p)⟩)
    else (s.adopt n p d l k, ⟨.ok, w16 (l.hops.val + 1), w16 s.recs[n].blocks.length⟩)
  | .vacant => (s, ⟨.wrongState, s.recs[n].stateWord, 0⟩)
  | .opened _ _ => (s, ⟨.wrongState, s.recs[n].stateWord, 0⟩)
  | .sealing _ _ => (s, ⟨.wrongState, s.recs[n].stateWord, 0⟩)
  | .sealed _ _ _ => (s, ⟨.wrongState, s.recs[n].stateWord, 0⟩)

/-- ADOPT_CHAIN (R83, R84). -/
def execAdoptChain (p : Port) (b : Beat) (s : State) : Answer :=
  chainBeat .adoptChain p b (fun n _ t => adoptChain p n t) s

/-! ### Recall Chain (R86) -/

/-- The live entries for a chain reference in all four queues. -/
def State.liveEntries (r : ChainRef) (s : State) : Nat := (ports.map (fun q => s.inqs[q].live r)).sum

/-- The recall as one event (R86): the pending entries voided, SEALED under the origin, the owner lease loaded. -/
def State.recall (n : ChainNo) (d : Delivery) (l : Label) (check : Word) (s : State) : State :=
  ((s.voidEntries ⟨n, s.recs[n].gen⟩).setRec n { s.recs[n] with life := .sealed d.origin l check }).loadLease n

/-- Recall Chain: refused while a destination holds the chain (R86). -/
def recallChain (n : ChainNo) (s : State) : State × Ending :=
  match s.recs[n].life with
  | .delivering d l k =>
    if d.hold ≠ 0 then (s, ⟨.taken, w16 (card d.hold), w16 (card d.pend)⟩)
    else (s.recall n d l k,
      ⟨.ok, w16 (s.liveEntries ⟨n, s.recs[n].gen⟩), w16 (d.accepted + d.refused + d.withdrawn)⟩)
  | .vacant => (s, ⟨.wrongState, s.recs[n].stateWord, 0⟩)
  | .opened _ _ => (s, ⟨.wrongState, s.recs[n].stateWord, 0⟩)
  | .sealing _ _ => (s, ⟨.wrongState, s.recs[n].stateWord, 0⟩)
  | .sealed _ _ _ => (s, ⟨.wrongState, s.recs[n].stateWord, 0⟩)

/-- RECALL_CHAIN (R86). -/
def execRecallChain (p : Port) (b : Beat) (s : State) : Answer :=
  chainBeat .recallChain p b (fun n _ t => recallChain n t) s

end Sys2Proof.Machine
end

