-- ==== Sys2Proof/Machine/NoticeUnit.lean ====
section
/-! DEFINITION. Take Notice (section 6.4). The placing of a notice is `State.offer`. -/

namespace Sys2Proof.Machine

/-- NU decides the take at select rise (R99). -/
def takeNotice (p : Port) (body : Body) (s : State) : State × Ending :=
  match body with
  | .notice (some n) delivered =>
    if delivered < 10 then (s, ⟨.incomplete, w16 delivered, w16 s.notqs[p].length⟩)
    else (s.setNotq p s.notqs[p].tail, ⟨.ok, n.kind.setWidth 16, w16 s.notqs[p].tail.length⟩)
  | .notice none _ => (s, ⟨.empty, 0, 0⟩)
  | .await => (s, ⟨.empty, 0, 0⟩)
  | .copy _ _ => (s, ⟨.empty, 0, 0⟩)
  | .inbound _ _ => (s, ⟨.empty, 0, 0⟩)
  | .streaming => (s, ⟨.empty, 0, 0⟩)
  | .refused _ => (s, ⟨.empty, 0, 0⟩)
  | .ended => (s, ⟨.empty, 0, 0⟩)

/-- TAKE_NOTICE (R98, R99). -/
def execTakeNotice (p : Port) (b : Beat) (s : State) : Answer :=
  takeBeat .takeNotice p b (fun t => .notice t.notqs[p].head? 0) (takeNotice p) s

end Sys2Proof.Machine
end

