-- ==== Sys2Proof/Machine/Queries.lean ====
section
/-! DEFINITION. The seven queries: what each copies, in the layouts of section 12.8. A copy is given with the record
it repeats: only Read Result repeats (R160). -/

namespace Sys2Proof.Machine

/-- Read Attention's three bytes (R133, R164). -/
def State.attentionBytes (s : State) (p : Port) : List Byte :=
  [(s.requests p).setWidth 8, s.enables[p].setWidth 8, b8 (s.topReason p)]

/-- Read Queue Status's seven bytes (R74, R164). -/
def State.queueBytes (s : State) (p : Port) : List Byte :=
  let q := s.inqs[p]
  [b8 (s.committed.depth p), b8 q.entries.length, b8 q.voids, b8 q.posted, b8 q.taken, q.postedLap, q.takenLap]

/-- The clearing count: the Clear Queue, plus 1 while the engine is CLEARING (R20). -/
def State.clearingCount (s : State) : Nat := s.clearQ.length + (if s.clearEng.isSome then 1 else 0)

/-- Read Free Status's eleven bytes (R122, R164). -/
def State.freeBytes (s : State) (p : Port) : List Byte :=
  be (w16 s.free.length) ++ be (w16 s.clearingCount) ++ [if s.watermark = .armed then 0 else 1] ++
  be (w16 s.chBlocks[p]) ++ [b8 s.chChains[p]] ++ be (w16 (s.committed.blockQuota p)) ++ [b8 (s.committed.chainQuota p)]

/-- The port may see a record's private part: it names the present generation and is the owner, or a holder (R17). -/
def ChainRec.entitles (r : ChainRec) (gen : Gen) (p : Port) : Bool :=
  r.gen = gen && (r.life.hasRole p .owner || r.life.hasRole p .holder)

/-- The public part, 8 bytes (R17, R165). -/
def ChainRec.publicBytes (r : ChainRec) : List Byte :=
  [b8 r.life.phase.code, r.gen.setWidth 8, (r.life.charged.map (fun q : Port => b8 q.val)).getD 0xFF] ++ be (w16 r.length) ++
  [b8 ((r.life.delivery.map (fun d => card d.dests)).getD 0), b8 ((r.life.delivery.map (fun d => card d.pend)).getD 0),
   b8 ((r.life.delivery.map (fun d => card d.hold)).getD 0)]

/-- The private part, 7 bytes (R17, R165). -/
def ChainRec.privateBytes (r : ChainRec) (lease : Lease) : List Byte :=
  be ((r.life.label.map (·.tag)).getD 0) ++ [b8 ((r.life.label.map (fun l => l.hops.val)).getD 0), b8 lease.remaining] ++
  be (r.life.check.getD 0) ++ [b8 r.blocks.length]

/-- Read Chain Info's bytes: the dummy byte, then the layout of R165; nothing but FFh for a reference out of range. -/
def State.chainInfoBytes (s : State) (p : Port) (ops : List Byte) : List Byte :=
  match parseRef (opByte ops 0) (opByte ops 1) with
  | none => []
  | some ref =>
    let r := s.recs[ref.num]
    [0xFF] ++ r.publicBytes ++
      (if r.entitles ref.gen p then r.privateBytes s.leases[ref.num] ++ r.blocks.flatMap (fun b => be (w16 b))
       else List.replicate 7 0)

/-- Read Settings' bytes by selector; nothing but FFh for the staged copy of a port that holds no claim and for any
other selector (R144, R166). -/
def State.settingsBytes (s : State) (p : Port) (selector : Byte) : List Byte :=
  if selector = 0 then s.committed.bytes
  else if selector = 1 then
    match s.claim with
    | some cl => if cl.holder = p then cl.staged.bytes else []
    | none => []
  else []

/-- Identify's four bytes: the ready flag is 1 when BS was READY when the transaction opened (R161). -/
def State.identifyBytes (s : State) (p : Port) : List Byte :=
  Config.identity ++ [(if s.pius[p].early then 0 else 0x80) ||| b8 p.val]

/-- READ_RESULT (R160): a disabled port is answered too (R151). -/
def execReadResult (p : Port) (b : Beat) (s : State) : Answer :=
  queryBeat .readResult p b true (fun _ t => (t.pius[p].result.bytes, t.pius[p].result.bytes)) s

/-- READ_ATTENTION (R133). -/
def execReadAttention (p : Port) (b : Beat) (s : State) : Answer :=
  queryBeat .readAttention p b false (fun _ t => (t.attentionBytes p, [])) s

/-- READ_QUEUE_STATUS (R74). -/
def execReadQueueStatus (p : Port) (b : Beat) (s : State) : Answer :=
  queryBeat .readQueueStatus p b false (fun _ t => (t.queueBytes p, [])) s

/-- READ_FREE_STATUS (R122). -/
def execReadFreeStatus (p : Port) (b : Beat) (s : State) : Answer :=
  queryBeat .readFreeStatus p b false (fun _ t => (t.freeBytes p, [])) s

/-- READ_CHAIN_INFO (R17). -/
def execReadChainInfo (p : Port) (b : Beat) (s : State) : Answer :=
  queryBeat .readChainInfo p b false (fun ops t => (t.chainInfoBytes p ops, [])) s

/-- READ_SETTINGS (R144): a disabled port is answered too (R151). -/
def execReadSettings (p : Port) (b : Beat) (s : State) : Answer :=
  queryBeat .readSettings p b true (fun ops t => (t.settingsBytes p (opByte ops 0), [])) s

/-- IDENTIFY (R161): answered by every port, while INITIALIZING too. -/
def execIdentify (p : Port) (b : Beat) (s : State) : Answer :=
  queryBeat .identify p b true (fun _ t => (t.identifyBytes p, [])) s

end Sys2Proof.Machine
end

