-- ==== Sys2Proof/Machine/Sealing.lean ====
section
/-! DEFINITION. Sealing (chapter 4): Seal Chain, Unseal Chain, the Seal Engine's line reads and its completion. -/

namespace Sys2Proof.Machine

/-- The chains ahead of one placed now: the elements in the queue, plus the one under the engine (R54). -/
def State.sealsAhead (s : State) : Nat := s.sealQ.length + (if s.sealEng.isSome then 1 else 0)

/-- The record becomes SEALING and joins the Seal Queue's tail; its lease is loaded; an IDLE engine starts (R54, R55). -/
def State.placeSeal (n : ChainNo) (p : Port) (l : Label) (s : State) : State :=
  let t := (s.setRec n { s.recs[n] with life := .sealing p l }).loadLease n
  ({ t with sealQ := t.sealQ ++ [{ num := n, gen := s.recs[n].gen }] } : State).startRun

/-- Seal Chain (R54). -/
def sealChain (p : Port) (n : ChainNo) (s : State) : State × Ending :=
  (s.placeSeal n p (s.recs[n].life.label.getD ⟨0, 0⟩), ⟨.ok, w16 s.sealsAhead, w16 s.recs[n].length⟩)

/-- SEAL_CHAIN (R54, R55). -/
def execSealChain (p : Port) (b : Beat) (s : State) : Answer :=
  chainBeat .sealChain p b (fun n _ t => sealChain p n t) s

/-- The record returns to OPEN: a seal under way is cancelled, a check value dropped, the lease loaded (R59). -/
def State.unseal (n : ChainNo) (p : Port) (l : Label) (s : State) : State :=
  ((s.cancelIfSealing n).setRec n { s.recs[n] with life := .opened p l }).loadLease n

/-- Unseal Chain (R59). -/
def unsealChain (p : Port) (n : ChainNo) (s : State) : State × Ending :=
  (s.unseal n p (s.recs[n].life.label.getD ⟨0, 0⟩), ⟨.ok, s.recs[n].stateWord, w16 s.recs[n].length⟩)

/-- UNSEAL_CHAIN (R59, R60). -/
def execUnsealChain (p : Port) (b : Beat) (s : State) : Answer :=
  chainBeat .unsealChain p b (fun n _ t => unsealChain p n t) s

/-- The chain's bytes from offset k, n of them, as the array holds them. -/
def chainBytes (m : Memory) (blocks : List Nat) (k n : Nat) : List Byte :=
  (List.range n).map (fun i => Memory.read m (byteAddr blocks (k + i)))

/-- The run after a granted line: the line's bytes from the next offset to the line's end, or to the length, are
processed; a run that reaches the length raises its completion (R56). -/
def SealRun.advance (m : Memory) (blocks : List Nat) (run : SealRun) : SealRun :=
  let stop := min ((run.next / Config.lineBytes + 1) * Config.lineBytes) run.length
  { run with
    next := stop
    reg := (chainBytes m blocks run.next (stop - run.next)).foldl crcByte run.reg
    finishing := stop = run.length }

/-- SEAL_LINE_READ (R56, R57). An engine that is IDLE or finishing asks for no line, its request withdrawn by an abort
(R60): nothing happens (log entry 3). -/
def execSealLineRead (s : State) : Answer :=
  match s.sealEng with
  | some run =>
    if run.finishing then .next s
    else if s.nextGrant ≠ some .sealEngine then .fault .notGranted
    else .next { s with arbPos := .sealEngine, sealEng := some (run.advance s.store s.recs[run.ref.num].blocks) }
  | none => .next s

/-- CT acts on a completion: SEALED with its check value, and the SEALED notice to the owner (R58, R93). -/
def State.complete (run : SealRun) (s : State) : State :=
  let r := s.recs[run.ref.num]
  match r.life with
  | .sealing o l =>
    if r.gen = run.ref.gen then
      (s.setRec run.ref.num { r with life := .sealed o l run.reg }).offer o (.sealed run.ref l.tag run.reg r.length)
    else s
  | .vacant => s
  | .opened _ _ => s
  | .sealed _ _ _ => s
  | .delivering _ _ _ => s

/-- SEAL_COMPLETION (R58): CT acts on the completion, or drops it (R8); either way the run ends and the next starts.
Where no completion is raised, or a cancellation has withdrawn it, CT takes none and nothing happens (R60, R61). -/
def execSealCompletion (s : State) : Answer :=
  match s.sealEng with
  | some run =>
    if run.finishing then .next ({ s.complete run with sealEng := none } : State).startRun else .next s
  | none => .next s

end Sys2Proof.Machine
end

