-- ==== Sys2Proof/Machine/SettingsUnit.lean ====
section
/-! DEFINITION. Shared settings (chapter 10): the claim, Write Setting, Commit Settings with its validation and its
withdrawals, Abandon Settings. -/

namespace Sys2Proof.Machine

/-- The staged copy, when port p holds the claim (R136). -/
def State.stagedOf (s : State) (p : Port) : Option Settings :=
  match s.claim with
  | some cl => if cl.holder = p then some cl.staged else none
  | none => none

/-- The claim is granted: a staged copy equal to the committed record, the claim lease loaded with 32 (R137). -/
def State.grantClaim (p : Port) (s : State) : State :=
  { s with claim := some ⟨p, s.committed⟩, claimLease := .running Config.claimTicks }

/-- The claim ends: the staged copy is discarded, the claim lease NONE (R136). -/
def State.endClaim (s : State) : State := { s with claim := none, claimLease := .none }

/-- Claim Settings (R137). -/
def claimSettings (p : Port) (s : State) : State × Ending :=
  match s.claim with
  | none => (s.grantClaim p, ⟨.ok, w16 Config.claimTicks, 0⟩)
  | some cl =>
    if cl.holder = p then (s, ⟨.wrongState, w16 p.val, 0⟩) else (s, ⟨.claimHeld, w16 cl.holder.val, 0⟩)

/-- CLAIM_SETTINGS (R137). -/
def execClaimSettings (p : Port) (b : Beat) (s : State) : Answer :=
  recordedBeat .claimSettings p b (fun _ t => claimSettings p t) s

/-- A field of the staged copy is written and the claim lease loaded with 32 (R139, R113). -/
def State.writeStaged (p : Port) (staged : Settings) (i : Fin 23) (v : Word) (s : State) : State :=
  { s with
    claim := some ⟨p, { fields := staged.fields.set i v }⟩
    claimLease := .running Config.claimTicks }

/-- Write Setting (R139). -/
def writeSetting (p : Port) (id : Byte) (v : Word) (s : State) : State × Ending :=
  match s.stagedOf p, fieldIndex id with
  | none, _ => (s, ⟨.noClaim, 0, 0⟩)
  | some _, none => (s, ⟨.range, id.setWidth 16, v⟩)
  | some staged, some i =>
    if fieldInRange i v then (s.writeStaged p staged i v, ⟨.ok, id.setWidth 16, v⟩)
    else (s, ⟨.range, id.setWidth 16, v⟩)

/-- WRITE_SETTING (R139). -/
def execWriteSetting (p : Port) (b : Beat) (s : State) : Answer :=
  recordedBeat .writeSetting p b (fun ops t => writeSetting p (opByte ops 0) (opWord ops 1) t) s

/-! ### Commit Settings (R140, R141) -/

/-- The lowest port whose staged depth differs from the committed one while its queue holds an entry (R140). -/
def State.badDepth (s : State) (staged : Settings) : Option Port :=
  ports.find? (fun q => staged.depth q ≠ s.committed.depth q && !s.inqs[q].entries.isEmpty)

/-- The validation of a staged copy, in field-ID order: none when it passes (R140). -/
def State.validate (s : State) (staged : Settings) : Option Ending :=
  match s.badDepth staged with
  | some q => some ⟨.badSetting, w16 (9 + q.val), w16 s.inqs[q].entries.length⟩
  | none =>
    if staged.highMark ≤ staged.lowMark then some ⟨.badSetting, 0x14, w16 staged.lowMark⟩
    else if staged.enableMask = 0 then some ⟨.badSetting, 0x17, 0⟩
    else none

/-- A queue whose depth changes: both offsets and both lap counts 0 (R73). -/
def InQueue.rewind (q : InQueue) : InQueue := { q with posted := 0, taken := 0, postedLap := 0, takenLap := 0 }

/-- Steps 1 to 3 of R141: the record committed, the changed depths set, the divider restarted. -/
def State.applySettings (staged : Settings) (s : State) : State :=
  { s with
    committed := staged
    inqs := Vector.ofFn (fun q : Port =>
      if staged.depth q = s.committed.depth q then s.inqs[q] else s.inqs[q].rewind)
    divider := if staged.tickSelect = s.committed.tickSelect then s.divider else 0 }

/-- The ports of a mask in the order in which the commit withdraws them: either order (R141), so a free value. -/
def State.portOrder (m : PortSet) (s : State) : List Port :=
  orderBy (fun q : Port => Config.portTakeKey s.fresh q.val) (ports.filter (inSet m))

/-- Step 4 of R141: each port newly disabled is withdrawn. -/
def State.withdrawAll (m : PortSet) (s : State) : State :=
  (s.portOrder m).foldl (fun t q => t.withdraw q disabledResult) s

/-- The ports a staged copy newly disables (R141). -/
def State.disables (s : State) (staged : Settings) : PortSet := s.committed.enableMask &&& ~~~ staged.enableMask

/-- The ports a staged copy newly enables. -/
def State.enablesAnew (s : State) (staged : Settings) : PortSet := staged.enableMask &&& ~~~ s.committed.enableMask

/-- The ports of a mask keep the notice queues and the edge requests they have in s: what the withdrawals of a commit
would send a port that the same commit enables is dropped (R101, R141, R152, log entry 30). -/
def State.sparing (m : PortSet) (s t : State) : State :=
  { t with
    notqs := Vector.ofFn (fun q : Port => if inSet m q then s.notqs[q] else t.notqs[q])
    edges := Vector.ofFn (fun q : Port => if inSet m q then s.edges[q] else t.edges[q]) }

/-- A commit that passes validation: the six steps of R141. -/
def State.commit (p : Port) (staged : Settings) (s : State) : State :=
  ((s.sparing (s.enablesAnew staged)
    ((s.applySettings staged).withdrawAll (s.disables staged))).endClaim).raiseAll .settingsChanged (only p)

/-- The outcome of a commit is recorded, unless the commit disabled its own port, whose Result record then holds the
withdrawal's values (R141). -/
def State.recordCommit (p : Port) (e : Ending) (s : State) : State :=
  if s.isEnabled p then s.record p Cmd.commitSettings.code e else s

/-- Commit Settings (R140, R141). -/
def commitSettings (p : Port) (s : State) : State :=
  match s.stagedOf p with
  | none => s.record p Cmd.commitSettings.code ⟨.noClaim, 0, 0⟩
  | some staged =>
    match s.validate staged with
    | some e => s.record p Cmd.commitSettings.code e
    | none =>
      (s.commit p staged).recordCommit p
        ⟨.ok, w16 (staged.changed s.committed), (s.disables staged).setWidth 16⟩

/-- COMMIT_SETTINGS (R140, R141). -/
def execCommitSettings (p : Port) (b : Beat) (s : State) : Answer :=
  actionBeat .commitSettings p b (fun _ t => commitSettings p t) s

/-- Abandon Settings (R143). -/
def abandonSettings (p : Port) (s : State) : State × Ending :=
  match s.stagedOf p with
  | none => (s, ⟨.noClaim, 0, 0⟩)
  | some staged => (s.endClaim, ⟨.ok, w16 (staged.changed s.committed), 0⟩)

/-- ABANDON_SETTINGS (R143). -/
def execAbandonSettings (p : Port) (b : Beat) (s : State) : Answer :=
  recordedBeat .abandonSettings p b (fun _ t => abandonSettings p t) s

end Sys2Proof.Machine
end

