-- ==== Sys2Proof/Machine/Streams.lean ====
section
/-! DEFINITION. The streams Append Data, Rewrite Data and Read Data (chapter 3), their bytes, the line accesses of a
staging line (section 2.6) and the close. -/

namespace Sys2Proof.Machine

/-! ### Acceptance (R34, R35) -/

/-- The staging line of a stream at its start: a Read Data below the length asks for the line of its offset (R30). -/
def Staging.initial (kind : StreamKind) (r : ChainRec) (offset : Nat) : Staging :=
  if kind = .read && offset < r.length then
    { Staging.reset with base := lineBase r.blocks offset, req := .fill }
  else Staging.reset

/-- A stream at its start. -/
def Stream.initial (kind : StreamKind) (ref : ChainRef) (offset : Nat) : Stream :=
  { kind := kind, ref := ref, start := offset, offset := offset, count := 0, short := false, stopped := none,
    shift := none, revoked := false, closing := false, earned := none }

/-- An accepted stream: the lease is loaded, the data phase begins. -/
def State.beginStream (c : Cmd) (kind : StreamKind) (p : Port) (ops : List Byte) (n : ChainNo) (offset : Nat) (s : State) :
    State :=
  (s.loadLease n).setPiu p
    { s.pius[p] with
      link := .body c ops .streaming
      wire := Wire.idle
      stream := some (Stream.initial kind ⟨n, s.recs[n].gen⟩ offset)
      staging := Staging.initial kind s.recs[n] offset }

/-- A refused stream keeps its transaction open until select rise, which records this outcome (R34, log entry 13). -/
def State.refuseStream (c : Cmd) (p : Port) (ops : List Byte) (e : Ending) (s : State) : State :=
  s.setLink p (.body c ops (.refused e))

/-- The operands of a stream are whole: it is accepted or refused, by the checks of R34 in order. The values of a refusal
(the generation and the state code of R13, the mask of R151) are those of this moment, not of the select rise that
records them: the model's reading (log entry 13). -/
def State.takeStream (c : Cmd) (kind : StreamKind) (p : Port) (ops : List Byte) (s : State) : State :=
  let offset := if kind = .append then 0 else (opWord ops 2).toNat
  if !s.isEnabled p then s.refuseStream c p ops s.disabledEnding
  else match s.chainCheck c p ops with
    | .error e => s.refuseStream c p ops e
    | .ok n =>
      if Config.chainBytes ≤ offset then s.refuseStream c p ops ⟨.range, 0, 0⟩
      else s.beginStream c kind p ops n offset

/-- APPEND_DATA (R34, R35). -/
def execAppendData (p : Port) (b : Beat) (s : State) : Answer :=
  linkBeat .appendData p b (fun ops t => t.takeStream .appendData .append p ops) (fun _ _ t => t) s

/-- REWRITE_DATA (R34, R35). -/
def execRewriteData (p : Port) (b : Beat) (s : State) : Answer :=
  linkBeat .rewriteData p b (fun ops t => t.takeStream .rewriteData .rewrite p ops) (fun _ _ t => t) s

/-! ### Placing a byte (R29) -/

/-- The staging line with a byte placed at chain offset k; a byte at the last place of its line requests a grant. -/
def Staging.place (blocks : List Nat) (k : Nat) (x : Byte) (g : Staging) : Staging :=
  { base := lineBase blocks k
    cells := g.cells.set (k % 16) (some x) (Nat.mod_lt _ (by decide))
    req := if k % 16 = 15 then .write else .none }

/-- Append Data accepts a byte at the chain's length (R37). -/
def State.appendAccept (p : Port) (st : Stream) (x : Byte) (s : State) : State :=
  let r := s.recs[st.ref.num]
  (s.setRec st.ref.num { r with length := r.length + 1 }).setPiu p
    { s.pius[p] with
      stream := some { st with count := st.count + 1 }
      staging := s.pius[p].staging.place r.blocks r.length x }

/-- A check of R38 failed: the stream stops accepting and keeps the reason (R39). -/
def State.appendStop (p : Port) (st : Stream) (why : ResultCode) (s : State) : State :=
  s.setPiu p { s.pius[p] with stream := some { st with stopped := some why } }

/-- A byte of an Append Data that accepts: R37, and for a byte that must start a new block the checks of R38. -/
def State.appendByte (p : Port) (st : Stream) (x : Byte) (s : State) : State :=
  let r := s.recs[st.ref.num]
  if r.length % Config.blockBytes ≠ 0 then s.appendAccept p st x
  else if Config.chainBlocks ≤ r.blocks.length then s.appendStop p st .tooLong
  else if s.committed.blockQuota p ≤ s.chBlocks[p] then s.appendStop p st .quotaBlocks
  else match s.allocate 1 with
    | none => s.appendStop p st .noBlock
    | some (bs, t) => (t.grow st.ref.num p bs).appendAccept p st x

/-- Rewrite Data takes a byte: below the length it is placed, at or past it discarded and the stream marked short
(R41). -/
def State.rewriteByte (p : Port) (st : Stream) (x : Byte) (s : State) : State :=
  let r := s.recs[st.ref.num]
  if st.offset < r.length then
    s.setPiu p
      { s.pius[p] with
        stream := some { st with offset := st.offset + 1, count := st.count + 1 }
        staging := s.pius[p].staging.place r.blocks st.offset x }
  else s.setPiu p { s.pius[p] with stream := some { st with offset := st.offset + 1, short := true } }

/-- The stream takes no further byte: ended by a vacate (R49) or stopped by a check (R39). -/
def Stream.deaf (st : Stream) : Bool := st.revoked || st.stopped.isSome

/-- A whole data byte in at port p, for the stream command c: `take` is what the open stream does with it. A stream
that was refused, or that a withdrawal ended, discards it (R34, R51); in a transaction ignored it is ignored. -/
def dataByteIn (c : Cmd) (p : Port) (take : Stream → State → State) (s : State) : Answer :=
  if !s.pius[p].sel then .next s
  else if s.midByte p then .fault .linkPhase
  else match s.pius[p].link with
    | .deselected => .next s
    | .command => .fault .linkPhase
    | .operand _ _ => .fault .linkPhase
    | .ignoring _ => if s.pius[p].early then .next s else .fault .linkPhase
    | .body c' _ body =>
      if c' ≠ c then .fault .linkPhase
      else match s.pius[p].stream, body with
        | some st, .streaming =>
          if st.deaf then .next (s.byteEnd p)
          else if s.pius[p].staging.req ≠ .none then .fault .lineNotReady
          else .next (take st (s.byteEnd p))
        | some _, _ => .next (s.byteEnd p)
        | none, _ => .next (s.byteEnd p)

/-- APPEND_DATA_BYTE (R37 to R39). -/
def execAppendDataByte (p : Port) (x : Byte) (s : State) : Answer :=
  dataByteIn .appendData p (fun st t => t.appendByte p st x) s

/-- REWRITE_DATA_BYTE (R41). -/
def execRewriteDataByte (p : Port) (x : Byte) (s : State) : Answer :=
  dataByteIn .rewriteData p (fun st t => t.rewriteByte p st x) s

/-! ### Reading (R30, R46) -/

/-- The byte at the stream's offset must come from the staging line, and the line is still waiting for its grant. -/
def Piu.starved (u : Piu) (st : Stream) (len : Nat) : Bool := !st.revoked && st.offset < len && u.staging.req ≠ .none

/-- The byte at the stream's offset enters the output shift stage: a real byte from the staging line below the length,
FFh otherwise. With the last byte of a line the next line is requested, if its bytes lie below the length (R30). -/
def Piu.shiftOut (st : Stream) (r : ChainRec) (u : Piu) : Piu :=
  if st.revoked || r.length ≤ st.offset then { u with stream := some { st with shift := some 0xFF } }
  else
    { u with
      stream := some { st with shift := some ((u.staging.cells[st.offset % 16]'(Nat.mod_lt _ (by decide))).getD 0xFF) }
      staging :=
        if st.offset % 16 = 15 && st.offset + 1 < r.length then
          { Staging.reset with base := lineBase r.blocks (st.offset + 1), req := .fill }
        else u.staging }

/-- The byte in the shift stage is delivered: it is real below the length, and marks the stream short at or past it
(R46, R47). -/
def Stream.deliver (st : Stream) (len : Nat) : Stream :=
  if st.revoked then st
  else if st.offset < len then { st with offset := st.offset + 1, count := st.count + 1 }
  else { st with offset := st.offset + 1, short := true }

/-- The next byte of a Read Data enters the shift stage, unless its line is not there yet. -/
def State.readNext (p : Port) (st : Stream) (s : State) : Answer :=
  let r := s.recs[st.ref.num]
  if s.pius[p].starved st r.length then .fault .lineNotReady
  else .next (s.setPiu p (s.pius[p].shiftOut st r))

/-- READ_DATA (R34, R35, R46): its `pass` is the dummy byte, which the first data byte follows. -/
def execReadData (p : Port) (b : Beat) (s : State) : Answer :=
  match b, s.pius[p].link, s.pius[p].stream with
  | .pass, .body .readData _ .streaming, some st =>
    if !s.pius[p].sel then .next s
    else if s.midByte p || st.shift.isSome then .fault .linkPhase
    else (s.byteEnd p).readNext p st
  | _, _, _ => linkBeat .readData p b (fun ops t => t.takeStream .readData .read p ops) (fun _ _ t => t) s

/-- READ_DATA_BYTE (R46, R36): the byte in the shift stage is delivered and the next one enters it. -/
def execReadDataByte (p : Port) (s : State) : Answer :=
  if !s.pius[p].sel then .next s
  else if s.midByte p then .fault .linkPhase
  else match s.pius[p].link with
    | .deselected => .next s
    | .command => .fault .linkPhase
    | .operand _ _ => .fault .linkPhase
    | .ignoring _ => if s.pius[p].early then .next s else .fault .linkPhase
    | .body c _ body =>
      if c ≠ .readData then .fault .linkPhase
      else match s.pius[p].stream, body with
        | some st, .streaming =>
          if st.shift.isNone then .fault .linkPhase
          else (s.byteEnd p).readNext p (st.deliver s.recs[st.ref.num].length)
        | some _, _ => .next (s.byteEnd p)
        | none, _ => .next (s.byteEnd p)

/-! ### Line accesses (R27, R29, R30) -/

/-- The outcome a stream earns, on a chain of length `len` (R40, R42, R47, R49). -/
def Stream.ending (st : Stream) (len : Nat) : Ending :=
  if st.revoked then ⟨.revoked, w16 st.count, 0⟩
  else match st.kind with
    | .append =>
      match st.stopped with
      | some why => ⟨.short, w16 st.count, why.byte.setWidth 16⟩
      | none => ⟨.ok, w16 st.count, w16 len⟩
    | .rewrite => ⟨if st.short then .short else .ok, w16 st.count, w16 len⟩
    | .read =>
      if len ≤ st.start then ⟨.short, 0, w16 len⟩
      else ⟨if st.short then .short else .ok, w16 st.count, w16 len⟩

/-- A staging-line write is complete: a stream whose select has risen is no longer in progress, and what it earned
stands (R29). -/
def Stream.settle (len : Nat) (st : Stream) : Stream :=
  if st.closing then { st with earned := some (st.ending len) } else st

/-- STAGING_LINE_WRITE (R29): the granted access writes the placed bytes; the staging line is then emptied. Where no
write waits, a vacate or a withdrawal having taken it away, the line is never written (R31, log entry 3). -/
def execStagingLineWrite (p : Port) (s : State) : Answer :=
  if s.pius[p].staging.req ≠ .write then .next s
  else if s.nextGrant ≠ some (.piu p) then .fault .notGranted
  else .next (({ s with
      store := Memory.writeCells s.store s.pius[p].staging.base s.pius[p].staging.cells.toList
      arbPos := .piu p } : State).setPiu p
    { s.pius[p] with
      staging := Staging.reset
      stream := s.pius[p].stream.map (fun st => st.settle s.recs[st.ref.num].length) })

/-- STAGING_LINE_FILL (R30): the granted access fills the staging line from the array. Where no fill waits nothing
happens (R31, log entry 3). -/
def execStagingLineFill (p : Port) (s : State) : Answer :=
  if s.pius[p].staging.req ≠ .fill then .next s
  else if s.nextGrant ≠ some (.piu p) then .fault .notGranted
  else .next (({ s with arbPos := .piu p } : State).setPiu p
    { s.pius[p] with
      staging := { s.pius[p].staging with
        cells := Memory.readLine s.store s.pius[p].staging.base
        req := .none } })

/-! ### Close (R29, R40, R42, R47, R49) -/

/-- The command of a stream. -/
def StreamKind.cmd : StreamKind → Cmd
  | .append => .appendData
  | .rewrite => .rewriteData
  | .read => .readData

/-- The stream's outcome is recorded, the one it has earned if its last write is complete, and the stream is over; a
line request still waiting is withdrawn. -/
def State.finishStream (p : Port) (st : Stream) (s : State) : State :=
  (s.setPiu p { s.pius[p] with stream := none, staging := Staging.reset }).record p st.kind.cmd.code
    (st.earned.getD (st.ending s.recs[st.ref.num].length))

/-- The staging line holds placed bytes. -/
def Staging.holds (g : Staging) : Bool := g.cells.toList.any (·.isSome)

/-- Select rises on an open stream: bytes placed and not yet written request their last grant and the recording waits
for it (R29); otherwise the outcome is recorded at once. -/
def State.closeStream (p : Port) (st : Stream) (s : State) : State :=
  if st.kind ≠ .read && s.pius[p].staging.holds then
    (s.deselect p).setPiu p
      { (s.deselect p).pius[p] with
        stream := some { st with closing := true }
        staging := { s.pius[p].staging with req := .write } }
  else (s.deselect p).finishStream p st

/-- Select rises on a stream's transaction. -/
def streamRise (p : Port) (s : State) : Answer :=
  if !s.pius[p].sel then .next s
  else match s.pius[p].link with
    | .deselected => .next (s.deselect p)
    | .command => .fault .linkPhase
    | .operand _ _ => .fault .linkPhase
    | .ignoring _ => if s.pius[p].early then .next (s.deselect p) else .fault .linkPhase
    | .body c _ body =>
      if c.cls ≠ .stream then .fault .linkPhase
      else match body with
        | .streaming =>
          match s.pius[p].stream with
          | some st => .next (s.closeStream p st)
          | none => .fault .linkPhase
        | .refused e => .next ((s.deselect p).record p c.code e)
        | .ended => .next (s.deselect p)
        | .await => .fault .linkPhase
        | .copy _ _ => .fault .linkPhase
        | .inbound _ _ => .fault .linkPhase
        | .notice _ _ => .fault .linkPhase

/-- The outcome of a stream whose select has risen is recorded, its last staging-line write complete or withdrawn by a
vacate (R29, R31). Where no closed stream waits for its recording, a withdrawal having ended it among others, no
outcome is recorded (R51, log entry 3). -/
def streamRecord (p : Port) (s : State) : Answer :=
  match s.pius[p].stream with
  | some st =>
    if !st.closing then .next s
    else if s.pius[p].staging.req ≠ .none then .fault .lineNotReady
    else .next (s.finishStream p st)
  | none => .next s

/-- STREAM_CLOSE (R29, R40, R42, R47, R49, R51). -/
def execStreamClose (p : Port) (b : CloseBeat) (s : State) : Answer :=
  match b with
  | .rise => streamRise p s
  | .record => streamRecord p s

end Sys2Proof.Machine
end

