-- ==== Sys2Proof/Machine/TimeBase.lean ====
section
/-! DEFINITION. The time base and the expiries (chapter 7): REFCLK_PERIOD, TICK, CHAIN_LEASE_EXPIRY,
CLAIM_LEASE_EXPIRY. -/

namespace Sys2Proof.Machine

/-- One tick: the count returns to 0 and every counter of LU takes it (R102, R106, R113). -/
def State.tick (s : State) : State :=
  { s with divider := 0, leases := s.leases.map Lease.tick, claimLease := s.claimLease.tick }

/-- The next REFCLK period brings the divider to its ratio (R102). -/
def State.tickDue (s : State) : Bool := s.ready && s.committed.tickRatio ≤ s.divider + 1

/-- TICK (R102): the period by which the divider reaches its ratio. Where no period would bring it there, after a commit
that restarted the divider (R103) or before READY (R102), the tick does not occur and nothing happens (log entry 15). -/
def execTick (s : State) : Answer := if s.tickDue then .next s.tick else .next s

/-- REFCLK_PERIOD (R102): the count rises by 1, and a period that brings it to the ratio is the tick; until BS is READY
the divider stays at 0. A period that falls together with a commit of the tick select, the commit taken first, counts
in the new tick period: the model's choice (log entry 15). -/
def execRefclkPeriod (s : State) : Answer :=
  if !s.ready then .next s
  else if s.tickDue then .next s.tick
  else .next { s with divider := s.divider + 1 }

/-- CHAIN_LEASE_EXPIRY (R109): CT takes the expiry of record n; it acts on a record of its generation that is not
VACANT, and is dropped otherwise (R8), the counter left NONE (log entry 14). An expiry that LU has not signalled, or that
a load or a vacate has withdrawn, is never taken: nothing happens (R105, R109). -/
def execChainLeaseExpiry (n : ChainNo) (s : State) : Answer :=
  match s.leases[n] with
  | .raised g =>
    if s.recs[n].gen = g && s.recs[n].life.phase ≠ .vacant then .next (s.expire n) else .next (s.setLease n .none)
  | .running _ _ => .next s
  | .none => .next s

/-- SU takes the claim expiry: the claim ends and its holder is sent CLAIM_LAPSED; with no claim held it is dropped
(R113, R97). -/
def State.lapse (s : State) : State :=
  match s.claim with
  | some cl => s.endClaim.offer cl.holder .claimLapsed
  | none => s.endClaim

/-- CLAIM_LEASE_EXPIRY (R113). An expiry not signalled, or withdrawn by a load or by the end of the claim, is never
taken: nothing happens. -/
def execClaimLeaseExpiry (s : State) : Answer :=
  match s.claimLease with
  | .raised => .next s.lapse
  | .running _ => .next s
  | .none => .next s

end Sys2Proof.Machine
end

