-- ==== Sys2Proof/Machine/Withdrawal.lean ====
section
/-! DEFINITION. Port Reset (chapter 11). The withdrawal itself is `State.withdraw`; the withdrawals of a commit are in
SettingsUnit. -/

namespace Sys2Proof.Machine

/-- PORT_RESET (R145): taken from an enabled port at select rise; the Result record takes the values of R150. -/
def execPortReset (p : Port) (b : Beat) (s : State) : Answer :=
  actionBeat .portReset p b (fun _ t => t.withdraw p portResetResult) s

end Sys2Proof.Machine
end

