-- ==== Sys2Proof/Machine/BitLink.lean ====
section
/-! DEFINITION. The link by its edges (R154): SELECT_FALL with the edges of PnCLK. A rising edge samples a bit, most
significant first, and the eighth makes the byte whole, which is then the event of the row it belongs to; a falling edge
changes PnDO to the next bit of the byte being driven. -/

namespace Sys2Proof.Machine

/-- A beat of command c's transaction: the meaning of its row. -/
def commandBeat (c : Cmd) (p : Port) (b : Beat) (s : State) : Answer :=
  match c with
  | .readResult => execReadResult p b s
  | .readAttention => execReadAttention p b s
  | .readQueueStatus => execReadQueueStatus p b s
  | .readFreeStatus => execReadFreeStatus p b s
  | .readChainInfo => execReadChainInfo p b s
  | .readSettings => execReadSettings p b s
  | .identify => execIdentify p b s
  | .openChain => execOpenChain p b s
  | .appendData => execAppendData p b s
  | .rewriteData => execRewriteData p b s
  | .extendChain => execExtendChain p b s
  | .readData => execReadData p b s
  | .sealChain => execSealChain p b s
  | .unsealChain => execUnsealChain p b s
  | .discardChain => execDiscardChain p b s
  | .renewLease => execRenewLease p b s
  | .handChain => execHandChain p b s
  | .takeInbound => execTakeInbound p b s
  | .releaseChain => execReleaseChain p b s
  | .adoptChain => execAdoptChain p b s
  | .recallChain => execRecallChain p b s
  | .takeNotice => execTakeNotice p b s
  | .setEnables => execSetEnables p b s
  | .acknowledgeAttention => execAcknowledgeAttention p b s
  | .claimSettings => execClaimSettings p b s
  | .writeSetting => execWriteSetting p b s
  | .commitSettings => execCommitSettings p b s
  | .abandonSettings => execAbandonSettings p b s
  | .portReset => execPortReset p b s

/-- A byte in BODY: a data byte in, a data byte out once the dummy byte has passed, or a further byte. -/
def bodyByte (c : Cmd) (p : Port) (x : Byte) (s : State) : Answer :=
  if c = .appendData then execAppendDataByte p x s
  else if c = .rewriteData then execRewriteDataByte p x s
  else if c = .readData && (s.pius[p].stream.bind (·.shift)).isSome then execReadDataByte p s
  else commandBeat c p .pass s

/-- The byte x has become whole at port p: the event it is, by the transaction state (R155). -/
def byteWhole (p : Port) (x : Byte) (s : State) : Answer :=
  match s.pius[p].link with
  | .deselected => .next s
  | .command =>
    match Cmd.ofCode x with
    | some c => commandBeat c p .code s
    | none => execUnknownCommand p (.code x) s
  | .operand c _ => commandBeat c p (.operand x) s
  | .body c _ _ => bodyByte c p x s
  | .ignoring _ => execUnknownCommand p .pass s

/-- The byte of eight bits, the first one the most significant (R154). -/
def byteOf (bits : List Bool) : Byte := bits.foldl (fun x b => (x <<< 1) ||| (if b then 1 else 0)) 0

/-- The byte's effect on the state, with PnDO at the level it had: it changes at the falling edge that follows. -/
def Answer.holdPnDO (p : Port) (level : Option Bool) : Answer → Answer
  | .next t => .next (t.setWire p { bits := [], out := some level })
  | .fault f => .fault f
  | .refused r => .refused r

/-- A transaction whose bits count: PnSEL is low, and it was not left open across a device reset. -/
def State.clocked (s : State) (p : Port) : Bool := s.pius[p].sel && s.pius[p].link ≠ .deselected

/-- PnCLK rises: PnDI is sampled, and the eighth bit makes the byte whole (R154). -/
def clockRises (p : Port) (pnDI : Bool) (s : State) : Answer :=
  if !s.clocked p then .next s
  else if s.pius[p].wire.bits.length < 7 then
    .next (s.setWire p { bits := s.pius[p].wire.bits ++ [pnDI], out := some (s.pnDOLevel p) })
  else (byteWhole p (byteOf (s.pius[p].wire.bits ++ [pnDI])) (s.byteEnd p)).holdPnDO p (s.pnDOLevel p)

/-- PnCLK falls: PnDO changes to the next bit of the byte being driven. While it is high-impedance, before the first
rising edge among others, the edge is ignored (R154). -/
def clockFalls (p : Port) (s : State) : State :=
  match s.pnDO p with
  | none => s
  | some x =>
    s.setWire p
      { s.pius[p].wire with out := some (some (x.getLsbD (7 - s.pius[p].wire.bits.length))) }

/-- PnSEL falls and a transaction opens; one that opens while INITIALIZING counts as received then (R154, R161). -/
def selectFalls (p : Port) (s : State) : Answer :=
  if s.pius[p].sel then .fault .alreadySelected
  else .next (s.setPiu p { s.pius[p] with sel := true, link := .command, wire := Wire.idle, early := !s.ready })

/-- SELECT_FALL (R154), with the clock's edges (log entry 18). -/
def execSelectFall (w : PortEdge) (s : State) : Answer :=
  match w.edge with
  | .select => selectFalls w.port s
  | .rising pnDI => clockRises w.port pnDI s
  | .falling => .next (clockFalls w.port s)

end Sys2Proof.Machine
end

