-- ==== Sys2Proof/Machine/Clearing.lean ====
section
/-! DEFINITION. The Clear Engine (section 2.4): CLEARING_START and CLEAR_LINE_WRITE. -/

namespace Sys2Proof.Machine

/-- A clearing at its start: the Clear Queue's head, the committed fill byte, line 0 (R23). -/
def State.startClearing (s : State) : Option Clearing := s.clearQ.head?.map (fun b => ⟨b, s.committed.fillByte, 0⟩)

/-- CLEARING_START (R23). Where the engine is not IDLE or the Clear Queue is empty no clearing starts: nothing happens
(log entry 3). -/
def execClearingStart (s : State) : Answer :=
  match s.clearEng, s.startClearing with
  | none, some c => .next { s with clearQ := s.clearQ.tail, clearEng := some c }
  | none, none => .next s
  | some _, _ => .next s

/-- One line of the block filled with the held fill byte (R23). -/
def State.fillLine (c : Clearing) (s : State) : State :=
  { s with
    arbPos := .clearEngine
    store := Memory.writeCells s.store (Config.blockBytes * c.block + Config.lineBytes * c.line)
      (List.replicate Config.lineBytes (some c.fill)) }

/-- The eighth line is written: the block joins the Free List's tail, and the engine begins the next block at once or
becomes IDLE (R23). -/
def State.completeClearing (c : Clearing) (s : State) : State :=
  { s.freeRises (s.free ++ [c.block]) with clearQ := s.clearQ.tail, clearEng := s.startClearing }

/-- CLEAR_LINE_WRITE (R23). An IDLE engine asks for no line: nothing happens (log entry 3). -/
def execClearLineWrite (s : State) : Answer :=
  match s.clearEng with
  | some c =>
    if s.nextGrant ≠ some .clearEngine then .fault .notGranted
    else if c.line < 7 then .next { s.fillLine c with clearEng := some { c with line := c.line + 1 } }
    else .next ((s.fillLine c).completeClearing c)
  | none => .next s

end Sys2Proof.Machine
end

