-- ==== Sys2Proof/Machine/Device.lean ====
section
/-! DEFINITION. Power, RESETn and start-up initialization (section 2.7): POWER_ON, RESETN_ASSERTION, RESETN_RELEASE,
INITIALIZATION_COMPLETE. -/

namespace Sys2Proof.Machine

/-- POWER_ON (R32): every block at its device-reset value, BS INITIALIZING; RESETn stands as the outside drives it. -/
def execPowerOn (s : State) : Answer := .next (s.deviceReset s.resetn)

/-- RESETN_ASSERTION (R32): every block returns to its reset values and BS stays INITIALIZING while RESETn is low. -/
def execResetnAssertion (s : State) : Answer := .next (s.deviceReset false)

/-- RESETN_RELEASE (R32): with RESETn high the initialization pass runs. -/
def execResetnRelease (s : State) : Answer := .next { s with resetn := true }

/-- INITIALIZATION_COMPLETE (R32): every byte of the array is 00h and BS becomes READY. -/
def execInitializationComplete (s : State) : Answer :=
  if s.ready || !s.resetn then .next s else .next { s with store := [], ready := true }

end Sys2Proof.Machine
end

