-- ==== Sys2Proof/Machine/Dispatch.lean ====
section
/-! DEFINITION. One arm per command: the command's effect on everything but the queue. -/

namespace Sys2Proof.Machine

def exec (i : Instr) (s : State) : Host.Outcome State Fault Refusal :=
  match i with
  | .powerOn => Sys2Proof.Machine.execPowerOn s
  | .resetnAssertion => Sys2Proof.Machine.execResetnAssertion s
  | .resetnRelease => Sys2Proof.Machine.execResetnRelease s
  | .initializationComplete => Sys2Proof.Machine.execInitializationComplete s
  | .selectFall w => Sys2Proof.Machine.execSelectFall w s
  | .framing p bits => Sys2Proof.Machine.execFraming p bits s
  | .unknownCommand p b => Sys2Proof.Machine.execUnknownCommand p b s
  | .readResult p b => Sys2Proof.Machine.execReadResult p b s
  | .readAttention p b => Sys2Proof.Machine.execReadAttention p b s
  | .readQueueStatus p b => Sys2Proof.Machine.execReadQueueStatus p b s
  | .readFreeStatus p b => Sys2Proof.Machine.execReadFreeStatus p b s
  | .readChainInfo p b => Sys2Proof.Machine.execReadChainInfo p b s
  | .readSettings p b => Sys2Proof.Machine.execReadSettings p b s
  | .identify p b => Sys2Proof.Machine.execIdentify p b s
  | .openChain p b => Sys2Proof.Machine.execOpenChain p b s
  | .appendData p b => Sys2Proof.Machine.execAppendData p b s
  | .appendDataByte p x => Sys2Proof.Machine.execAppendDataByte p x s
  | .rewriteData p b => Sys2Proof.Machine.execRewriteData p b s
  | .rewriteDataByte p x => Sys2Proof.Machine.execRewriteDataByte p x s
  | .readData p b => Sys2Proof.Machine.execReadData p b s
  | .readDataByte p => Sys2Proof.Machine.execReadDataByte p s
  | .stagingLineWrite p => Sys2Proof.Machine.execStagingLineWrite p s
  | .stagingLineFill p => Sys2Proof.Machine.execStagingLineFill p s
  | .streamClose p b => Sys2Proof.Machine.execStreamClose p b s
  | .extendChain p b => Sys2Proof.Machine.execExtendChain p b s
  | .sealChain p b => Sys2Proof.Machine.execSealChain p b s
  | .sealLineRead => Sys2Proof.Machine.execSealLineRead s
  | .sealCompletion => Sys2Proof.Machine.execSealCompletion s
  | .unsealChain p b => Sys2Proof.Machine.execUnsealChain p b s
  | .discardChain p b => Sys2Proof.Machine.execDiscardChain p b s
  | .renewLease p b => Sys2Proof.Machine.execRenewLease p b s
  | .handChain p b => Sys2Proof.Machine.execHandChain p b s
  | .takeInbound p b => Sys2Proof.Machine.execTakeInbound p b s
  | .releaseChain p b => Sys2Proof.Machine.execReleaseChain p b s
  | .adoptChain p b => Sys2Proof.Machine.execAdoptChain p b s
  | .recallChain p b => Sys2Proof.Machine.execRecallChain p b s
  | .takeNotice p b => Sys2Proof.Machine.execTakeNotice p b s
  | .setEnables p b => Sys2Proof.Machine.execSetEnables p b s
  | .acknowledgeAttention p b => Sys2Proof.Machine.execAcknowledgeAttention p b s
  | .claimSettings p b => Sys2Proof.Machine.execClaimSettings p b s
  | .writeSetting p b => Sys2Proof.Machine.execWriteSetting p b s
  | .commitSettings p b => Sys2Proof.Machine.execCommitSettings p b s
  | .abandonSettings p b => Sys2Proof.Machine.execAbandonSettings p b s
  | .portReset p b => Sys2Proof.Machine.execPortReset p b s
  | .tick => Sys2Proof.Machine.execTick s
  | .chainLeaseExpiry n => Sys2Proof.Machine.execChainLeaseExpiry n s
  | .claimLeaseExpiry => Sys2Proof.Machine.execClaimLeaseExpiry s
  | .clearingStart => Sys2Proof.Machine.execClearingStart s
  | .clearLineWrite => Sys2Proof.Machine.execClearLineWrite s
  | .selectRise p => Sys2Proof.Machine.execSelectRise p s
  | .refclkPeriod => Sys2Proof.Machine.execRefclkPeriod s

end Sys2Proof.Machine
end

