-- ==== Sys2Proof/Safety.lean ====
section
/-! DEFINITION. What is said about the machine: the moments of a transaction that statements name, the state after a
device reset, and the invariants of the spec (R3, R4, R18, R20, R52, R69 to R71, R104, R113, R116, R135, R136, R151).
Nothing here is used by a meaning. -/

namespace Sys2Proof.Machine

/-! ### Rows and ports -/

/-- The row of command c at port p. -/
def row (c : Cmd) (p : Port) (b : Beat) : Instr :=
  match c with
  | .readResult => .readResult p b
  | .readAttention => .readAttention p b
  | .readQueueStatus => .readQueueStatus p b
  | .readFreeStatus => .readFreeStatus p b
  | .readChainInfo => .readChainInfo p b
  | .readSettings => .readSettings p b
  | .identify => .identify p b
  | .openChain => .openChain p b
  | .appendData => .appendData p b
  | .rewriteData => .rewriteData p b
  | .extendChain => .extendChain p b
  | .readData => .readData p b
  | .sealChain => .sealChain p b
  | .unsealChain => .unsealChain p b
  | .discardChain => .discardChain p b
  | .renewLease => .renewLease p b
  | .handChain => .handChain p b
  | .takeInbound => .takeInbound p b
  | .releaseChain => .releaseChain p b
  | .adoptChain => .adoptChain p b
  | .recallChain => .recallChain p b
  | .takeNotice => .takeNotice p b
  | .setEnables => .setEnables p b
  | .acknowledgeAttention => .acknowledgeAttention p b
  | .claimSettings => .claimSettings p b
  | .writeSetting => .writeSetting p b
  | .commitSettings => .commitSettings p b
  | .abandonSettings => .abandonSettings p b
  | .portReset => .portReset p b

/-- The port on whose link an event takes place. -/
def portOf : Instr → Option Port
  | .powerOn | .resetnAssertion | .resetnRelease | .initializationComplete => none
  | .selectFall ⟨p, _⟩ | .framing p _ | .unknownCommand p _ | .selectRise p => some p
  | .readResult p _ | .readAttention p _ | .readQueueStatus p _ | .readFreeStatus p _ | .readChainInfo p _
  | .readSettings p _ | .identify p _ => some p
  | .openChain p _ | .appendData p _ | .rewriteData p _ | .readData p _ | .extendChain p _ => some p
  | .appendDataByte p _ | .rewriteDataByte p _ | .readDataByte p => some p
  | .stagingLineWrite _ | .stagingLineFill _ => none
  | .streamClose p _ => some p
  | .sealChain p _ | .unsealChain p _ | .discardChain p _ | .renewLease p _ => some p
  | .sealLineRead | .sealCompletion => none
  | .handChain p _ | .takeInbound p _ | .releaseChain p _ | .adoptChain p _ | .recallChain p _ => some p
  | .takeNotice p _ | .setEnables p _ | .acknowledgeAttention p _ => some p
  | .claimSettings p _ | .writeSetting p _ | .commitSettings p _ | .abandonSettings p _ | .portReset p _ => some p
  | .tick | .chainLeaseExpiry _ | .claimLeaseExpiry | .clearingStart | .clearLineWrite | .refclkPeriod => none

/-- Whole bytes of a link: the command byte, an operand byte, a data byte, a further byte. -/
def isByte : Instr → Bool
  | .powerOn | .resetnAssertion | .resetnRelease | .initializationComplete => false
  | .selectFall _ | .framing _ _ | .selectRise _ => false
  | .unknownCommand _ b => b ≠ .rise
  | .readResult _ b | .readAttention _ b | .readQueueStatus _ b | .readFreeStatus _ b | .readChainInfo _ b
  | .readSettings _ b | .identify _ b | .openChain _ b | .appendData _ b | .rewriteData _ b | .readData _ b
  | .extendChain _ b | .sealChain _ b | .unsealChain _ b | .discardChain _ b | .renewLease _ b | .handChain _ b
  | .takeInbound _ b | .releaseChain _ b | .adoptChain _ b | .recallChain _ b | .takeNotice _ b | .setEnables _ b
  | .acknowledgeAttention _ b | .claimSettings _ b | .writeSetting _ b | .commitSettings _ b | .abandonSettings _ b
  | .portReset _ b => b ≠ .rise
  | .appendDataByte _ _ | .rewriteDataByte _ _ | .readDataByte _ => true
  | .stagingLineWrite _ | .stagingLineFill _ | .streamClose _ _ | .sealLineRead | .sealCompletion => false
  | .tick | .chainLeaseExpiry _ | .claimLeaseExpiry | .clearingStart | .clearLineWrite | .refclkPeriod => false

/-- The row that the byte x belongs to when it becomes whole at port p (R155, R156, R158): in COMMAND the row of the
command it names, or UNKNOWN_COMMAND; an operand byte, a data byte or a further byte of the command in OPERAND or BODY;
an ignored byte. -/
def State.rowOf (s : State) (p : Port) (x : Byte) : Instr :=
  match s.pius[p].link with
  | .deselected | .ignoring _ => .unknownCommand p .pass
  | .command =>
    match Cmd.ofCode x with
    | some c => row c p .code
    | none => .unknownCommand p (.code x)
  | .operand c _ => row c p (.operand x)
  | .body c _ _ =>
    match c with
    | .appendData => .appendDataByte p x
    | .rewriteData => .rewriteDataByte p x
    | .readData => if (s.pius[p].stream.bind (·.shift)).isSome then .readDataByte p else .readData p .pass
    | _ => row c p .pass

/-- The rows of the bytes that cross the link of command c in BODY. -/
def bodyRows (c : Cmd) (p : Port) (x : Byte) : List Instr :=
  match c with
  | .appendData => [.appendDataByte p x]
  | .rewriteData => [.rewriteDataByte p x]
  | .readData => [.readData p .pass, .readDataByte p]
  | _ => [row c p .pass]

/-! ### Moments of a transaction -/

/-- No bit of the next byte has been sampled. -/
abbrev AtByte (s : State) (p : Port) : Prop := s.pius[p].wire.bits = []

/-- A transaction that opened with BS READY waits for its command byte, no stream of the port still closing. -/
abbrev AtCommand (s : State) (p : Port) : Prop :=
  s.pius[p].sel = true ∧ s.pius[p].link = .command ∧ s.pius[p].early = false ∧ s.pius[p].stream = none ∧ AtByte s p

/-- Command c has received the operand bytes `ops` and waits for the next. -/
abbrev AtOperand (s : State) (p : Port) (c : Cmd) (ops : List Byte) : Prop :=
  s.pius[p].sel = true ∧ s.pius[p].link = .operand c ops ∧ AtByte s p

/-- Command c with operands `ops` is in BODY, doing b. -/
abbrev InBody (s : State) (p : Port) (c : Cmd) (ops : List Byte) (b : Body) : Prop :=
  s.pius[p].sel = true ∧ s.pius[p].link = .body c ops b

/-- Action c with operands `ops` waits for its select rise at an enabled port. -/
abbrev Waits (s : State) (p : Port) (c : Cmd) (ops : List Byte) : Prop :=
  InBody s p c ops .await ∧ s.isEnabled p = true

/-- A stream st of port p with command c and operands `ops` is in its data phase. -/
abbrev Streams (s : State) (p : Port) (c : Cmd) (ops : List Byte) (st : Stream) : Prop :=
  InBody s p c ops .streaming ∧ s.pius[p].stream = some st

/-- The two operand bytes name record n in its present generation, and the record is not VACANT. -/
abbrev Names (s : State) (nb gb : Byte) (n : ChainNo) : Prop :=
  nb.toNat = n.val ∧ gb.toNat = s.recs[n].gen.toNat ∧ s.recs[n].life ≠ .vacant

/-- The PIU after a select rise that records nothing (R155). -/
def Piu.closed (u : Piu) : Piu :=
  { u with sel := false, link := .deselected, wire := { bits := [], out := none }, early := false }

/-- The PIU after a select rise that records an outcome (R155, R159). -/
def Piu.answered (command : Byte) (e : Ending) (u : Piu) : Piu :=
  { u with
    sel := false
    link := .deselected
    wire := { bits := [], out := none }
    early := false
    result := { seq := u.result.seq + 1, command := command, ending := e } }

/-- The machine in which port p's transaction closes with an outcome and nothing else happens. -/
def State.answers (p : Port) (command : Byte) (e : Ending) (s : State) : State :=
  { s with pius := s.pius.set p (s.pius[p].answered command e) }

/-- The outcome that a stream earns on a chain of length `len` (R40, R42, R47, R49). -/
def outcomeOf (st : Stream) (len : Nat) : Ending :=
  if st.revoked = true then ⟨.revoked, w16 st.count, 0⟩
  else match st.kind, st.stopped with
    | .append, none => ⟨.ok, w16 st.count, w16 len⟩
    | .append, some why => ⟨.short, w16 st.count, why.byte.setWidth 16⟩
    | .rewrite, _ => ⟨if st.short = true then .short else .ok, w16 st.count, w16 len⟩
    | .read, _ =>
      if len ≤ st.start then ⟨.short, 0, w16 len⟩
      else ⟨if st.short = true then .short else .ok, w16 st.count, w16 len⟩

/-- The participants and tallies of a delivery from which port p has been withdrawn (R147). -/
def Delivery.less (p : Port) (d : Delivery) : Delivery :=
  { d with pend := d.pend &&& ~~~ only p, hold := d.hold &&& ~~~ only p, withdrawn := d.withdrawn + 1 }

/-- One chain's part in the withdrawal of port p, which owns it or takes part in it: a chain it owns is vacated without
a notice (R146); from a delivery it departs, and the departure that leaves no participant sends CONSUMED to the origin
and vacates the record (R147, R79). -/
def State.withoutPort (p : Port) (s : State) (n : ChainNo) : State :=
  match s.recs[n].life with
  | .vacant => s
  | .opened o _ | .sealing o _ | .sealed o _ _ => if o = p then s.vacate n else s
  | .delivering d l k =>
    let left : State := { s with recs := s.recs.set n { s.recs[n] with life := .delivering (d.less p) l k } }
    if (d.less p).pend = 0 ∧ (d.less p).hold = 0 then
      (left.offer d.origin
        (.consumed ⟨n, s.recs[n].gen⟩ l.tag d.accepted d.refused (d.withdrawn + 1) (card d.dests))).vacate n
    else left

/-- What a withdrawal does to a command in BODY (R150): a stream, a take and a refusal that has been taken end; a copy
goes on, and an action has not been taken. -/
def bodyWithout : Body → Body
  | .await => .await
  | .copy bytes again => .copy bytes again
  | .inbound _ _ | .notice _ _ | .streaming | .refused _ | .ended => .ended

/-- What a withdrawal leaves of port p's own state in HU, NU, AU, SU, LU and its PIU (R149, R150). The count `fresh` is
the model's (log entry 10), and so is the address 0 of an empty staging line (log entry 22); that a stream which has
earned its outcome keeps it, and one ended by a vacate does not, is log entry 29; that a refusal ends is log entry 12. -/
def State.stripped (p : Port) (res : ResultRec) (s : State) : State :=
  { s with
    inqs := s.inqs.set p { entries := [], posted := 0, taken := 0, postedLap := 0, takenLap := 0 }
    notqs := s.notqs.set p []
    edges := s.edges.set p 0
    enables := s.enables.set p 0
    claim := (match s.claim with | some cl => if cl.holder = p then none else some cl | none => none)
    claimLease := (match s.claim with | some cl => if cl.holder = p then .none else s.claimLease | none => s.claimLease)
    pius := s.pius.set p
      { s.pius[p] with
        result := res
        staging := { base := 0, cells := Vector.replicate 16 none, req := .none }
        stream := (match s.pius[p].stream with | some st => if st.earned = none then none else some st | none => none)
        link := (match s.pius[p].link with
          | .body c ops b => .body c ops (bodyWithout b)
          | .deselected => .deselected
          | .command => .command
          | .operand c ops => .operand c ops
          | .ignoring x => .ignoring x) }
    fresh := s.fresh + 1 }

/-- The counter that a load of `len` ticks leaves (R105). -/
def loaded (len : Nat) (g : Gen) : Lease := if len = 0 then .none else .running len g

/-- The counter that a load leaves for a record of life l and generation g (R105). -/
def loadedFor (c : Settings) (g : Gen) : Life → Lease
  | .vacant => .none
  | .opened o _ => loaded (c.ownerLease o) g
  | .sealing o _ => loaded (c.ownerLease o) g
  | .sealed o _ _ => loaded (c.ownerLease o) g
  | .delivering _ _ _ => loaded c.deliveryLease g

/-- The run that starts for the head of a Seal Queue, none for an empty queue (R55). -/
def nextRun (recs : Vector ChainRec 64) (q : List ChainRef) : Option SealRun :=
  q.head?.map (fun r =>
    { ref := r, length := recs[r.num].length, next := 0, reg := 0xFFFF, finishing := recs[r.num].length = 0 })

/-- An offset of an inbound queue and its lap count, one place further (R70). -/
def nextPlace (depth off : Nat) (lap : BitVec 8) : Nat × BitVec 8 :=
  if depth ≤ off + 1 then (0, lap + 1) else (off + 1, lap)

/-- The value lies in the range of the field with this ID (R135's table). -/
def legalSetting (id v : Nat) : Bool :=
  (1 ≤ id && id ≤ 4 && v ≤ 512) || (5 ≤ id && id ≤ 8 && v ≤ 64) ||
  (9 ≤ id && id ≤ 12 && (v = 4 || v = 8 || v = 16 || v = 32)) || (13 ≤ id && id ≤ 17 && v ≤ 255) ||
  (id = 18 && v ≤ 3) || (id = 19 && v ≤ 511) || (id = 20 && 1 ≤ v && v ≤ 512) || (id = 21 && v ≤ 1) ||
  (id = 22 && v ≤ 255) || (id = 23 && 1 ≤ v && v ≤ 15)

/-- How many of the 23 fields differ between two Settings records. -/
def fieldsChanged (a b : Settings) : Nat := ((List.finRange 23).filter (fun i => a.fields[i] ≠ b.fields[i])).length

/-- The nine actions that name a chain (section 1.5; the three streams are the others). -/
def chainActions : List Cmd :=
  [.extendChain, .sealChain, .unsealChain, .discardChain, .renewLease, .handChain, .releaseChain, .adoptChain,
   .recallChain]

/-- The port holds a role that the rows of R12's table name for command c. -/
def holdsRole (c : Cmd) (l : Life) (p : Port) : Bool :=
  match c with
  | .releaseChain | .adoptChain => l.hasRole p .holder
  | .recallChain => l.hasRole p .origin
  | .readData => l.hasRole p .owner || l.hasRole p .holder
  | .renewLease => l.hasRole p .owner || l.hasRole p .origin || l.hasRole p .holder || l.hasRole p .pending
  | _ => l.hasRole p .owner

/-- The states in which command c is accepted from an owner (R12). -/
def ownerStates : Cmd → List Phase
  | .appendData | .rewriteData | .extendChain | .sealChain => [.opened]
  | .unsealChain => [.sealing, .sealed]
  | .discardChain | .readData | .renewLease => [.opened, .sealing, .sealed]
  | .handChain => [.sealed]
  | _ => []

/-- The place of a requester in the ring of R27. -/
def Requester.place : Requester → Nat
  | .piu p => p.val
  | .sealEngine => 4
  | .clearEngine => 5

/-- How many places after position a the requester b stands in the ring, 1 to 6. -/
def ringDistance (a b : Requester) : Nat := (b.place + 5 - a.place) % 6 + 1

/-! ### Device reset -/

/-- Every block holds its device-reset value (R5, R19, R33, R63, R69, R89, R115, R116, R134 to R136, R155, R159). The
input pins, the store's bytes and the queue are not the blocks'. -/
def AtReset (s : State) : Prop :=
  s.ready = false ∧ s.free = List.range 512 ∧ s.clearQ = [] ∧ s.clearEng = none ∧ s.watermark = .armed ∧
  s.arbPos = .clearEngine ∧
  (∀ n : ChainNo, s.recs[n] = { gen := 0, life := .vacant, length := 0, blocks := [] } ∧ s.leases[n] = .none) ∧
  s.sealQ = [] ∧ s.sealEng = none ∧ s.divider = 0 ∧ s.claimLease = .none ∧ s.claim = none ∧
  s.committed.fields =
    #v[128, 128, 128, 128, 16, 16, 16, 16, 8, 8, 8, 8, 64, 64, 64, 64, 128, 2, 32, 64, 1, 0, 15] ∧
  (∀ p : Port,
    s.chBlocks[p] = 0 ∧ s.chChains[p] = 0 ∧ s.notqs[p] = [] ∧ s.edges[p] = 0 ∧ s.enables[p] = 0 ∧
    s.inqs[p] = { entries := [], posted := 0, taken := 0, postedLap := 0, takenLap := 0 } ∧
    s.pius[p].link = .deselected ∧ s.pius[p].wire = { bits := [], out := none } ∧ s.pius[p].early = false ∧
    s.pius[p].stream = none ∧
    s.pius[p].result = { seq := 0, command := 0, ending := ⟨.ok, 0, 0⟩ } ∧
    s.pius[p].staging.req = .none ∧ s.pius[p].staging.cells = Vector.replicate 16 none)

/-! ### Invariants -/

/-- The store array's list has its canonical form. -/
def StoreInv (s : State) : Prop := Memory.wf s.store = true

/-- A stream in progress that no vacate has ended is on a record of its generation that is not VACANT; one that writes
is the owner's, in OPEN (R29, R34, R49). -/
def StreamsInv (s : State) : Prop :=
  ∀ (p : Port) (st : Stream), s.pius[p].stream = some st → st.revoked = false → st.earned = none →
    s.recs[st.ref.num].gen = st.ref.gen ∧ s.recs[st.ref.num].life ≠ .vacant ∧
    (st.kind ≠ .read → ∃ l, s.recs[st.ref.num].life = .opened p l)

/-- R155: a link in OPERAND state still needs an operand byte of its command. -/
def OperandsInv (s : State) : Prop :=
  ∀ (p : Port) (c : Cmd) (ops : List Byte), s.pius[p].link = .operand c ops → ops.length < c.operandCount

/-- A link in OPERAND state still needs a byte. While a stream of the port is open, its link carries that stream's
command in its data phase, or, with select raised, no command that is past its command byte; only a stream whose select
has risen has earned its outcome (R29, R34). -/
def LinksInv (s : State) : Prop :=
  OperandsInv s ∧ ∀ (p : Port) (st : Stream), s.pius[p].stream = some st →
    (∀ c ops, s.pius[p].link ≠ .operand c ops) ∧
    (∀ c ops b, s.pius[p].link = .body c ops b → b = .streaming ∧ c = st.kind.cmd ∧ st.closing = false) ∧
    (st.earned ≠ none → st.closing = true)

/-- All block numbers, in the three places of R20. -/
def State.allBlocks (s : State) : List Nat :=
  s.free ++ s.clearQ ++ (s.clearEng.map (·.block)).toList ++ s.recs.toList.flatMap (·.blocks)

/-- R20: every block number is in exactly one place. R3: each list holds the blocks its length needs, at most 64, and
a VACANT record has length 0. -/
def BlocksInv (s : State) : Prop :=
  s.allBlocks.Perm (List.range 512) ∧
  (∀ n : ChainNo, s.recs[n].blocks.length = (s.recs[n].length + 127) / 128 ∧ s.recs[n].length ≤ 8192 ∧
    (s.recs[n].life = .vacant → s.recs[n].length = 0)) ∧
  StreamsInv s ∧ LinksInv s

/-- The records charged to a port (R117). -/
def State.chargedTo (s : State) (p : Port) : List ChainRec := s.recs.toList.filter (fun r => r.life.charged = some p)

/-- R116: the charge counters agree with the records. -/
def ChargesInv (s : State) : Prop :=
  (∀ p : Port, s.chBlocks[p] = ((s.chargedTo p).map (·.blocks.length)).sum ∧ s.chChains[p] = (s.chargedTo p).length) ∧
  StreamsInv s ∧ LinksInv s

/-- R4: the sets and tallies of a delivery. -/
def Delivery.ok (d : Delivery) : Prop :=
  d.pend &&& d.hold = 0 ∧ (d.pend ||| d.hold) &&& ~~~d.dests = 0 ∧ inSet d.dests d.origin = false ∧
  d.accepted + d.refused + d.withdrawn + card d.pend + card d.hold = card d.dests ∧ (d.pend ≠ 0 ∨ d.hold ≠ 0)

/-- R4 for every DELIVERING record; R71: a port's queue holds one live entry for a chain while the chain is
DELIVERING and the port pending, and none otherwise. -/
def DeliveriesInv (s : State) : Prop :=
  (∀ (n : ChainNo) (d : Delivery), s.recs[n].life.delivery = some d → d.ok) ∧
  (∀ (p : Port) (n : ChainNo) (g : Gen),
    s.inqs[p].live ⟨n, g⟩ = if s.recs[n].gen = g ∧ s.recs[n].life.hasRole p .pending = true then 1 else 0)

/-- The chains under the engine and in the Seal Queue. -/
def State.sealRefs (s : State) : List ChainRef := (s.sealEng.map (·.ref)).toList ++ s.sealQ

/-- R52: a chain is in the Seal Queue or under the engine, once, exactly while its record is SEALING, in its present
generation; R55: an IDLE engine leaves no chain waiting. -/
def SealInv (s : State) : Prop :=
  (∀ n : ChainNo,
    s.sealRefs.filter (fun r => r.num = n) =
      if s.recs[n].life.phase = .sealing then [⟨n, s.recs[n].gen⟩] else []) ∧
  (s.sealEng = none → s.sealQ = [])

/-- Every field of a Settings record lies in its range (R135). -/
def Settings.inRange (c : Settings) : Prop := ∀ i : Fin 23, legalSetting (i.val + 1) c.fields[i].toNat = true

/-- R135, R136, R113, R102: the committed record's ranges, its marks and its mask; a staged copy's ranges; the claim's
counter, present exactly while the claim is held, 1 to 32 while it runs; the divider below its ratio. -/
def SettingsInv (s : State) : Prop :=
  s.committed.inRange ∧ s.committed.lowMark < s.committed.highMark ∧ s.committed.enableMask ≠ 0 ∧
  (∀ cl, s.claim = some cl → cl.staged.inRange) ∧ (s.claim = none ↔ s.claimLease = .none) ∧
  (∀ c, s.claimLease = .running c → 1 ≤ c ∧ c ≤ 32) ∧ s.divider < s.committed.tickRatio

/-- R104: a counter that runs or has signalled belongs to a record that is not VACANT, in its present generation; a
running count is 1 to 255. -/
def LeasesInv (s : State) : Prop :=
  SettingsInv s ∧
  (∀ (n : ChainNo) (c : Nat) (g : Gen), s.leases[n] = .running c g →
    1 ≤ c ∧ c ≤ 255 ∧ g = s.recs[n].gen ∧ s.recs[n].life ≠ .vacant) ∧
  (∀ (n : ChainNo) (g : Gen), s.leases[n] = .raised g → g = s.recs[n].gen ∧ s.recs[n].life ≠ .vacant)

/-- The counting of R70 for one queue: the entries in it are those posted less those taken, modulo the laps. -/
def InQueue.counts (depth : Nat) (q : InQueue) : Prop :=
  q.entries.length ≤ depth ∧ q.posted < depth ∧ q.taken < depth ∧
  (q.takenLap.toNat * depth + q.taken + q.entries.length) % (256 * depth) =
    (q.postedLap.toNat * depth + q.posted) % (256 * depth)

/-- R69, R70 for the inbound queues, at their committed depths; R89 for the notice queues. -/
def QueuesInv (s : State) : Prop :=
  SettingsInv s ∧ ∀ p : Port, s.inqs[p].counts (s.committed.depth p) ∧ s.notqs[p].length ≤ 8

/-- The body carries no command taken in a way that a withdrawal ends (R150). -/
def Body.untaken : Body → Prop
  | .inbound _ _ | .notice _ _ | .streaming => False
  | .await | .copy _ _ | .refused _ | .ended => True

/-- R151: a disabled port's queues are empty, its requests and enables 0; it owns no chain, stands in no pending or
holder set, holds no claim, and has no take under way, nor a stream but one whose outcome waits to be recorded. -/
def DisabledInv (s : State) : Prop :=
  ∀ p : Port, s.isEnabled p = false →
    s.inqs[p].entries = [] ∧ s.notqs[p] = [] ∧ s.edges[p] = 0 ∧ s.enables[p] = 0 ∧
    (∀ n : ChainNo, s.recs[n].life.touches p = false) ∧ (∀ cl, s.claim = some cl → cl.holder ≠ p) ∧
    (∀ st, s.pius[p].stream = some st → st.earned ≠ none) ∧
    (∀ c ops b, s.pius[p].link = .body c ops b → b.untaken)

end Sys2Proof.Machine
end

