-- ==== Sys2Proof/Certificates/Slice0/Obligations.lean ====
section
/-! DEFINITION. The statements for the provers. The vocabulary (moments of a transaction, invariants) is in Safety.lean. -/

open Sys2Proof Sys2Proof.Machine

/-! ### The machine as a whole -/

/-- A step takes the command at the front of the queue; on an empty queue the block idles (log entry 1). -/
def Obligations.StepTakesFrontCommand : Prop :=
  ∀ (c : Instr) (rest : List Instr) (s : State),
    step { s with pending := c :: rest } = exec c { s with pending := rest } ∧
    step { s with pending := [] } = .next { s with pending := [] }

/-- No command changes the queue. The queue is the model's own, by its choice (log entry 1). -/
def Obligations.ExecKeepsQueue : Prop :=
  ∀ (c : Instr) (s t : State), exec c s = .next t → t.pending = s.pending

/-- The refusals are the ill-formed terms, and nothing else (log entry 24): no row of the table is refused, in any state
in which a link that waits for operand bytes still needs one (`OperandsInv`, which every step keeps as part of
`BlocksInv`; a state without it is one that no run reaches, log entry 21). -/
def Obligations.RefusedIffIllFormed : Prop :=
  ∀ (c : Instr) (s : State),
    (c.wellFormed = false → exec c s = .refused .illFormed) ∧
    (OperandsInv s → c.wellFormed = true → ∀ r, exec c s ≠ .refused r)

/-- The state after device reset, and POWER_ON, RESETN_ASSERTION, RESETN_RELEASE and INITIALIZATION_COMPLETE (R32). The
pins' levels, the store's bytes before READY and the model's own two fields are the model's choice (log entries 1, 4, 6,
10); so are that POWER_ON is taken from any state (log entry 5), and that INITIALIZATION_COMPLETE does nothing where no
initialization pass runs, RESETn being low or BS READY (log entry 3). -/
def Obligations.DeviceEvents : Prop :=
  AtReset State.reset ∧ State.reset.resetn = true ∧ State.reset.store = [] ∧ State.reset.pending = [] ∧
  State.reset.fresh = 0 ∧ (∀ p : Port, State.reset.pius[p].sel = false) ∧
  (∀ s : State,
    (∃ t, exec .powerOn s = .next t ∧ AtReset t ∧ t.resetn = s.resetn ∧ t.store = s.store ∧ t.pending = s.pending ∧
      ∀ p : Port, t.pius[p].sel = s.pius[p].sel) ∧
    (∃ t, exec .resetnAssertion s = .next t ∧ AtReset t ∧ t.resetn = false ∧ t.store = s.store ∧
      t.pending = s.pending ∧ ∀ p : Port, t.pius[p].sel = s.pius[p].sel) ∧
    exec .resetnRelease s = .next { s with resetn := true } ∧
    (s.resetn = true → s.ready = false →
      exec .initializationComplete s = .next { s with store := [], ready := true }) ∧
    (s.resetn = false ∨ s.ready = true → exec .initializationComplete s = .next s)) ∧
  ∀ a : Nat, Memory.read [] a = 0

/-! ### The link -/

/-- The edges of a link (R154). SELECT_FALL opens a transaction and, with PnSEL high, every other event of the link is
ignored; SELECT_RISE closes a transaction that records no outcome, and changes nothing else (R155, R156, R161; log entries
23, 25). PnDO is high-impedance before the command byte is whole. A rising edge of PnCLK samples a bit, most significant
first, and the eighth makes the byte whole: the row it belongs to follows (`rowOf`); a falling edge changes PnDO to the
next bit of the byte driven, and is ignored while PnDO is high-impedance. That edges and whole bytes stand side by side
is the model's choice (log entry 18). -/
def Obligations.SelectEdges : Prop :=
  ∀ (s : State) (p : Port),
    (s.pius[p].sel = false →
      exec (.selectFall ⟨p, .select⟩) s = .next
        { s with
          pius := s.pius.set p
            { s.pius[p] with
              sel := true, link := .command, wire := { bits := [], out := none }, early := !s.ready } } ∧
      s.pnDO p = none ∧ s.pnDOLevel p = none ∧
      ∀ i : Instr, portOf i = some p → i.wellFormed = true → i ≠ .selectFall ⟨p, .select⟩ → i ≠ .streamClose p .record →
        exec i s = .next s) ∧
    (s.pius[p].sel = true →
      (s.pius[p].link = .deselected ∨ (s.pius[p].link = .command ∧ (AtByte s p ∨ s.pius[p].early = true)) ∨
        (∃ c ops bytes again, s.pius[p].link = .body c ops (.copy bytes again)) ∨
        (∃ c ops, s.pius[p].link = .body c ops .ended) ∨
        (s.pius[p].early = true ∧ ∃ x, s.pius[p].link = .ignoring x)) →
      exec (.selectRise p) s = .next { s with pius := s.pius.set p s.pius[p].closed }) ∧
    (s.pius[p].link = .deselected ∨ s.pius[p].link = .command → s.pnDO p = none) ∧
    (∀ e : LinkEdge, s.pius[p].sel = true → s.pius[p].link = .deselected → e ≠ .select →
      exec (.selectFall ⟨p, e⟩) s = .next s) ∧
    (∀ b : Bool, s.pius[p].sel = true → s.pius[p].link ≠ .deselected → s.pius[p].wire.bits.length < 7 →
      exec (.selectFall ⟨p, (.rising b)⟩) s = .next
        { s with
          pius := s.pius.set p
            { s.pius[p] with
              wire := { bits := s.pius[p].wire.bits ++ [b], out := some (s.pnDOLevel p) } } }) ∧
    (∀ (b : Bool) (x : Byte) (t : State), s.pius[p].sel = true → s.pius[p].link ≠ .deselected →
      s.pius[p].wire.bits.length = 7 →
      (∀ k : Fin 8, x.getLsbD k.val = (s.pius[p].wire.bits ++ [b]).getD (7 - k.val) false) →
      exec (s.rowOf p x) { s with pius := s.pius.set p { s.pius[p] with wire := { bits := [], out := none } } } =
        .next t →
      exec (.selectFall ⟨p, (.rising b)⟩) s = .next
        { t with
          pius := t.pius.set p { t.pius[p] with wire := { bits := [], out := some (s.pnDOLevel p) } } }) ∧
    (s.pnDO p = none → exec (.selectFall ⟨p, .falling⟩) s = .next s) ∧
    (∀ x : Byte, s.pnDO p = some x →
      exec (.selectFall ⟨p, .falling⟩) s = .next
        { s with
          pius := s.pius.set p
            { s.pius[p] with
              wire :=
                { bits := s.pius[p].wire.bits
                  out := some (some (x.getLsbD (7 - s.pius[p].wire.bits.length))) } } }) ∧
    (∀ level, s.pius[p].sel = true → s.pius[p].wire.out = some level → s.pnDOLevel p = level)

/-- R157: what FRAMING records, the LINK_ERROR it raises at an enabled port, and that nothing else changes. That the
bits sampled are those that clock edges gave and those that FRAMING adds is the model's choice (log entry 18), and so is
that FRAMING closes in silence a transaction with no bit sampled or one that opened while INITIALIZING (log entry 23). -/
def Obligations.FramingRecorded : Prop :=
  ∀ (s : State) (p : Port) (bits : Fin 8) (k : Nat), s.pius[p].sel = true →
    k = s.pius[p].wire.bits.length + bits.val → k < 8 →
    (s.pius[p].link = .command → s.pius[p].early = false → k ≠ 0 →
      exec (.framing p bits) s = .next
        { s with
          pius := s.pius.set p (s.pius[p].answered 0 ⟨.framing, 0, 0⟩)
          edges := s.edges.set p (if s.isEnabled p then s.edges[p] ||| 0x10 else s.edges[p]) }) ∧
    (∀ c ops, s.pius[p].link = .operand c ops →
      exec (.framing p bits) s = .next
        { s with
          pius := s.pius.set p (s.pius[p].answered c.code ⟨.framing, w16 ops.length, w16 c.operandCount⟩)
          edges := s.edges.set p (if s.isEnabled p then s.edges[p] ||| 0x10 else s.edges[p]) }) ∧
    (s.pius[p].link = .command → (k = 0 ∨ s.pius[p].early = true) →
      exec (.framing p bits) s = .next { s with pius := s.pius.set p s.pius[p].closed })

/-- R158: an undefined code moves the PIU to IGNORING, where FFh is output and bytes are ignored; select rise records
UNKNOWN_COMMAND with the code and raises LINK_ERROR at an enabled port. -/
def Obligations.UnknownCommandRecorded : Prop :=
  (∀ x : Byte, Cmd.ofCode x = none ↔ ∀ c : Cmd, c.code ≠ x) ∧ Cmd.ofCode 0x00 = none ∧ Cmd.ofCode 0xFF = none ∧
  ∀ (s : State) (p : Port) (x : Byte), Cmd.ofCode x = none →
    (AtCommand s p → exec (.unknownCommand p (.code x)) s = .next (s.setLink p (.ignoring x))) ∧
    (s.pius[p].sel = true → s.pius[p].link = .ignoring x → s.pius[p].early = false →
      s.pnDO p = some 0xFF ∧ (AtByte s p → exec (.unknownCommand p .pass) s = .next (s.byteEnd p)) ∧
      exec (.unknownCommand p .rise) s = .next
        { s with
          pius := s.pius.set p (s.pius[p].answered x ⟨.unknownCommand, 0, 0⟩)
          edges := s.edges.set p (if s.isEnabled p then s.edges[p] ||| 0x10 else s.edges[p]) })

/-- The command byte and the operand bytes of every command, and the wait of an action for its select rise: each
changes the PIU's transaction state and nothing else (R155, R156). FFh is output through the operand bytes and while an
action waits (R154). The moments are those of log entry 2. -/
def Obligations.OperandsGathered : Prop :=
  ∀ (s : State) (p : Port) (c : Cmd),
    (AtCommand s p → 0 < c.operandCount → exec (row c p .code) s = .next (s.setLink p (.operand c []))) ∧
    (∀ ops, s.pius[p].sel = true → s.pius[p].link = .operand c ops → s.pnDO p = some 0xFF) ∧
    (∀ ops x, AtOperand s p c ops → ops.length + 1 < c.operandCount →
      exec (row c p (.operand x)) s = .next (s.setLink p (.operand c (ops ++ [x])))) ∧
    (c.cls = .action →
      (AtCommand s p → c.operandCount = 0 → exec (row c p .code) s = .next (s.setLink p (.body c [] .await))) ∧
      (∀ ops x, AtOperand s p c ops → ops.length + 1 = c.operandCount →
        exec (row c p (.operand x)) s = .next (s.setLink p (.body c (ops ++ [x]) .await))) ∧
      (∀ ops, InBody s p c ops .await →
        s.pnDO p = some 0xFF ∧ (AtByte s p → exec (row c p .pass) s = .next (s.byteEnd p))))

/-- A transaction that opened while BS was INITIALIZING (R161): every code but Identify's, defined or not, is ignored,
and so is every later byte; PnDO stays high-impedance, select rise records nothing, and Identify answers with the ready
flag 0. -/
def Obligations.InitializingIgnored : Prop :=
  ∀ (s : State) (p : Port), s.pius[p].sel = true → s.pius[p].early = true →
    (s.pius[p].link = .command → AtByte s p →
      (∀ c : Cmd, c ≠ .identify → exec (row c p .code) s = .next (s.setLink p (.ignoring c.code))) ∧
      (∀ x : Byte, Cmd.ofCode x = none → exec (.unknownCommand p (.code x)) s = .next (s.setLink p (.ignoring x))) ∧
      (s.pius[p].stream = none →
        exec (.identify p .code) s =
          .next (s.setLink p (.body .identify [] (.copy [0x6A, 0x41, 0x01, b8 p.val] []))))) ∧
    (∀ x, s.pius[p].link = .ignoring x →
      s.pnDO p = none ∧
      (∀ i : Instr, AtByte s p → portOf i = some p → isByte i = true → i.wellFormed = true → exec i s = .next s) ∧
      exec (.selectRise p) s = .next { s with pius := s.pius.set p s.pius[p].closed })

/-- A disabled port's commands (R151): an action is not executed and records DISABLED at select rise; a query, a take
and a stream are refused when they are taken. A refused command, for whatever reason, outputs FFh, discards its bytes
(R34) and records its refusal at select rise; a command that a withdrawal has ended outputs FFh, discards its bytes (R51,
R77, R100) and records nothing (R150). That the mask recorded is the one at the moment of the refusal is the model's
reading (log entry 13). -/
def Obligations.DisabledRefused : Prop :=
  ∀ (s : State) (p : Port),
    (s.isEnabled p = false →
      (∀ c ops, c.cls = .action → InBody s p c ops .await →
        exec (row c p .rise) s =
          .next (s.answers p c.code ⟨.disabled, s.committed.enableMask.setWidth 16, 0⟩)) ∧
      (∀ c, c ∈ [Cmd.readAttention, .readQueueStatus, .readFreeStatus, .takeInbound, .takeNotice] → AtCommand s p →
        exec (row c p .code) s =
          .next (s.setLink p (.body c [] (.refused ⟨.disabled, s.committed.enableMask.setWidth 16, 0⟩)))) ∧
      (∀ c ops x, c ∈ [Cmd.readChainInfo, .appendData, .rewriteData, .readData] → AtOperand s p c ops →
        ops.length + 1 = c.operandCount →
        exec (row c p (.operand x)) s =
          .next (s.setLink p
            (.body c (ops ++ [x]) (.refused ⟨.disabled, s.committed.enableMask.setWidth 16, 0⟩))))) ∧
    (∀ c ops e, InBody s p c ops (.refused e) →
      s.pnDO p = some 0xFF ∧
      (∀ x i, AtByte s p → i ∈ bodyRows c p x → exec i s = .next (s.byteEnd p)) ∧
      exec (if c.cls = .stream then .streamClose p .rise else row c p .rise) s = .next (s.answers p c.code e)) ∧
    (∀ c ops, InBody s p c ops .ended →
      s.pnDO p = some 0xFF ∧
      (∀ x i, AtByte s p → i ∈ bodyRows c p x → exec i s = .next (s.byteEnd p)) ∧
      exec (if c.cls = .stream then .streamClose p .rise else row c p .rise) s =
        .next { s with pius := s.pius.set p s.pius[p].closed })

/-! ### Queries -/

/-- READ_ATTENTION, READ_QUEUE_STATUS and READ_FREE_STATUS copy their records when the command byte is whole, and
change nothing else (R74, R122, R133, R164). -/
def Obligations.StatusQueriesCopy : Prop :=
  ∀ (s : State) (p : Port), AtCommand s p → s.isEnabled p = true →
    exec (.readAttention p .code) s =
      .next (s.setLink p (.body .readAttention []
        (.copy [(s.requests p).setWidth 8, s.enables[p].setWidth 8, b8 (s.topReason p)] []))) ∧
    exec (.readQueueStatus p .code) s =
      .next (s.setLink p (.body .readQueueStatus []
        (.copy [b8 (s.committed.depth p), b8 s.inqs[p].entries.length,
          b8 (s.inqs[p].entries.filter (fun e => e.void)).length, b8 s.inqs[p].posted, b8 s.inqs[p].taken,
          s.inqs[p].postedLap, s.inqs[p].takenLap] []))) ∧
    exec (.readFreeStatus p .code) s =
      .next (s.setLink p (.body .readFreeStatus []
        (.copy
          (be (w16 s.free.length) ++ be (w16 (s.clearQ.length + s.clearEng.toList.length)) ++
            [if s.watermark = .armed then 0x00 else 0x01] ++ be (w16 s.chBlocks[p]) ++ [b8 s.chChains[p]] ++
            be (w16 (s.committed.blockQuota p)) ++ [b8 (s.committed.chainQuota p)]) [])))

/-- READ_CHAIN_INFO copies the record when the second operand byte is whole: FFh out of range, else the public part, then
the private part and the block list for an entitled port and zeros for any other (R17, R165). -/
def Obligations.ChainInfoCopied : Prop :=
  ∀ (s : State) (p : Port) (nb gb : Byte), AtOperand s p .readChainInfo [nb] → s.isEnabled p = true →
    (64 ≤ nb.toNat ∨ 16 ≤ gb.toNat →
      exec (.readChainInfo p (.operand gb)) s =
        .next (s.setLink p (.body .readChainInfo [nb, gb] (.copy [] [])))) ∧
    (∀ n : ChainNo, nb.toNat = n.val → gb.toNat < 16 →
      exec (.readChainInfo p (.operand gb)) s =
        .next (s.setLink p (.body .readChainInfo [nb, gb]
          (.copy
            ([0xFF, b8 s.recs[n].life.phase.code, s.recs[n].gen.setWidth 8,
              (match s.recs[n].life.charged with | some q => b8 q.val | none => 0xFF)] ++
             be (w16 s.recs[n].length) ++
             (match s.recs[n].life.delivery with
              | some d => [b8 (card d.dests), b8 (card d.pend), b8 (card d.hold)]
              | none => [0, 0, 0]) ++
             (if s.recs[n].gen.toNat = gb.toNat ∧
                (s.recs[n].life.hasRole p .owner = true ∨ s.recs[n].life.hasRole p .holder = true) then
                (match s.recs[n].life.label with | some l => be l.tag ++ [b8 l.hops.val] | none => [0, 0, 0]) ++
                [match s.leases[n] with | .none => 0 | .running c _ => b8 c | .raised _ => 0] ++
                (match s.recs[n].life.check with | some k => be k | none => [0, 0]) ++
                [b8 s.recs[n].blocks.length] ++ s.recs[n].blocks.flatMap (fun b => be (w16 b))
              else [0, 0, 0, 0, 0, 0, 0])) []))))

/-- READ_SETTINGS copies the record its selector names (R144, R166); IDENTIFY outputs the identity with the ready flag 1
in a transaction that opened with BS READY (R161); READ_RESULT copies the Result record and repeats it (R160, R163).
Enabled and disabled ports are answered alike (R151). -/
def Obligations.SettingsIdentityResultCopied : Prop :=
  ∀ (s : State) (p : Port),
    (∀ x : Byte, AtOperand s p .readSettings [] →
      (x = 0x00 → exec (.readSettings p (.operand x)) s =
        .next (s.setLink p (.body .readSettings [x] (.copy (s.committed.fields.toList.flatMap be) [])))) ∧
      (∀ staged, x = 0x01 → s.claim = some ⟨p, staged⟩ → exec (.readSettings p (.operand x)) s =
        .next (s.setLink p (.body .readSettings [x] (.copy (staged.fields.toList.flatMap be) [])))) ∧
      (x = 0x01 → (∀ cl, s.claim = some cl → cl.holder ≠ p) → exec (.readSettings p (.operand x)) s =
        .next (s.setLink p (.body .readSettings [x] (.copy [] [])))) ∧
      (x ≠ 0x00 → x ≠ 0x01 → exec (.readSettings p (.operand x)) s =
        .next (s.setLink p (.body .readSettings [x] (.copy [] []))))) ∧
    (AtCommand s p →
      exec (.identify p .code) s =
        .next (s.setLink p (.body .identify [] (.copy [0x6A, 0x41, 0x01, 0x80 ||| b8 p.val] []))) ∧
      exec (.readResult p .code) s =
        .next (s.setLink p (.body .readResult []
          (.copy
            ([s.pius[p].result.seq, s.pius[p].result.command, s.pius[p].result.ending.code.byte] ++
              be s.pius[p].result.ending.value1 ++ be s.pius[p].result.ending.value2)
            ([s.pius[p].result.seq, s.pius[p].result.command, s.pius[p].result.ending.code.byte] ++
              be s.pius[p].result.ending.value1 ++ be s.pius[p].result.ending.value2)))))

/-- A query's copy is driven out byte by byte; after its last byte FFh follows, or the copied record again where one
repeats; select rise, mid-byte included, records nothing (R154, R156, R160). -/
def Obligations.QueryOutput : Prop :=
  ∀ (s : State) (p : Port) (c : Cmd) (ops bytes again : List Byte), c.cls = .query →
    InBody s p c ops (.copy bytes again) →
    (bytes = [] → s.pnDO p = some 0xFF ∧ (AtByte s p → exec (row c p .pass) s = .next (s.byteEnd p))) ∧
    (∀ b, bytes = [b] →
      s.pnDO p = some b ∧
      (AtByte s p → exec (row c p .pass) s = .next (s.setLink p (.body c ops (.copy again again))))) ∧
    (∀ b b' bs, bytes = b :: b' :: bs →
      s.pnDO p = some b ∧
      (AtByte s p → exec (row c p .pass) s = .next (s.setLink p (.body c ops (.copy (b' :: bs) again))))) ∧
    exec (row c p .rise) s = .next { s with pius := s.pius.set p s.pius[p].closed }

/-- A copy is not altered by events of other ports and engines during the rest of its transaction (R156, R150). -/
def Obligations.CopyUndisturbed : Prop :=
  ∀ (i : Instr) (s t : State) (p : Port) (c : Cmd) (ops bytes again : List Byte),
    InBody s p c ops (.copy bytes again) → portOf i ≠ some p → i ≠ .powerOn → i ≠ .resetnAssertion →
    exec i s = .next t → InBody t p c ops (.copy bytes again)

/-! ### Commands that name a chain -/

/-- The checks of R11 and R12 on the nine actions that name a chain, in their order, with the outcome values of R13; a
refused command leaves everything but the PIU as it was. -/
def Obligations.ChainChecksRefuse : Prop :=
  ∀ (s : State) (p : Port) (c : Cmd) (nb gb : Byte) (rest : List Byte),
    c ∈ chainActions → Waits s p c (nb :: gb :: rest) →
    (64 ≤ nb.toNat ∨ 16 ≤ gb.toNat → exec (row c p .rise) s = .next (s.answers p c.code ⟨.range, 0, 0⟩)) ∧
    (∀ n : ChainNo, nb.toNat = n.val → gb.toNat < 16 →
      (s.recs[n].life = .vacant ∨ s.recs[n].gen.toNat ≠ gb.toNat →
        exec (row c p .rise) s =
          .next (s.answers p c.code ⟨.stale, s.recs[n].gen.setWidth 16, w16 s.recs[n].life.phase.code⟩)) ∧
      (s.recs[n].life ≠ .vacant → s.recs[n].gen.toNat = gb.toNat → holdsRole c s.recs[n].life p = false →
        exec (row c p .rise) s = .next (s.answers p c.code ⟨.notYours, w16 s.recs[n].life.phase.code, 0⟩)) ∧
      (s.recs[n].gen.toNat = gb.toNat → holdsRole c s.recs[n].life p = true → s.recs[n].life.owner = some p →
        s.recs[n].life.phase ∉ ownerStates c →
        exec (row c p .rise) s = .next (s.answers p c.code ⟨.wrongState, w16 s.recs[n].life.phase.code, 0⟩)))

/-- OPEN_CHAIN (R14, R15): the two checks in order, the lowest-numbered VACANT record, and what it is set up with. -/
def Obligations.OpenChain : Prop :=
  ∀ (s : State) (p : Port) (x y : Byte), Waits s p .openChain [x, y] →
    (s.committed.chainQuota p ≤ s.chChains[p] →
      exec (.openChain p .rise) s =
        .next (s.answers p 0x20 ⟨.quotaChains, w16 s.chChains[p], w16 (s.committed.chainQuota p)⟩)) ∧
    (s.chChains[p] < s.committed.chainQuota p → (∀ n : ChainNo, s.recs[n].life ≠ .vacant) →
      exec (.openChain p .rise) s = .next (s.answers p 0x20 ⟨.noRecord, 0, 0⟩)) ∧
    (∀ n : ChainNo, s.chChains[p] < s.committed.chainQuota p → s.recs[n].life = .vacant →
      (∀ m : ChainNo, m < n → s.recs[m].life ≠ .vacant) →
      exec (.openChain p .rise) s = .next
        { s with
          recs := s.recs.set n
            { gen := s.recs[n].gen, life := .opened p ⟨x ++ y, 0⟩, length := 0, blocks := [] }
          chChains := s.chChains.set p (s.chChains[p] + 1)
          leases := s.leases.set n (loaded (s.committed.ownerLease p) s.recs[n].gen)
          pius := s.pius.set p (s.pius[p].answered 0x20 ⟨.ok, w16 n.val, s.recs[n].gen.setWidth 16⟩) })

/-- DISCARD_CHAIN (R16): the owner's chain is vacated in OPEN, SEALING and SEALED, without a notice. -/
def Obligations.DiscardChain : Prop :=
  ∀ (s : State) (p : Port) (nb gb : Byte) (n : ChainNo),
    Waits s p .discardChain [nb, gb] → Names s nb gb n → s.recs[n].life.owner = some p →
    exec (.discardChain p .rise) s =
      .next (((s.deselect p).vacate n).record p 0x27 ⟨.ok, w16 s.recs[n].blocks.length, 0⟩)

/-- The eight steps of a vacate (R9): the generation, the release of the block list, the charge, the lease, the seal,
the streams in progress, the entries and the record; what it leaves as it was, a stream whose last staging-line write is
complete among it (R29). That the release of no blocks compares no watermark is the model's reading (log entry 19), and
so is the address 0 of an empty line (log entry 22). -/
def Obligations.VacateEffects : Prop :=
  ∀ (s : State) (n : ChainNo) (q : Port), s.recs[n].life.charged = some q →
    (s.vacate n).recs =
      s.recs.set n { gen := s.recs[n].gen + 1, life := .vacant, length := 0, blocks := [] } ∧
    (s.committed.clearOnRelease = true →
      (s.vacate n).clearQ = s.clearQ ++ s.recs[n].blocks ∧ (s.vacate n).free = s.free ∧
      (s.vacate n).watermark = s.watermark) ∧
    (s.committed.clearOnRelease = false →
      (s.vacate n).free = s.free ++ s.recs[n].blocks ∧ (s.vacate n).clearQ = s.clearQ ∧
      ((s.vacate n).watermark ≠ s.watermark ↔
        s.recs[n].blocks ≠ [] ∧ s.watermark = .tripped ∧
        s.committed.highMark ≤ s.free.length + s.recs[n].blocks.length)) ∧
    (s.vacate n).chBlocks = s.chBlocks.set q (s.chBlocks[q] - s.recs[n].blocks.length) ∧
    (s.vacate n).chChains = s.chChains.set q (s.chChains[q] - 1) ∧
    (s.vacate n).leases = s.leases.set n .none ∧
    (s.recs[n].life.phase ≠ .sealing → (s.vacate n).sealQ = s.sealQ ∧ (s.vacate n).sealEng = s.sealEng) ∧
    (s.recs[n].life.phase = .sealing → (∀ run, s.sealEng = some run → run.ref.num ≠ n) →
      (s.vacate n).sealQ = s.sealQ.filter (fun r => r.num ≠ n) ∧ (s.vacate n).sealEng = s.sealEng) ∧
    (∀ run, s.recs[n].life.phase = .sealing → s.sealEng = some run → run.ref.num = n →
      (s.vacate n).sealQ = s.sealQ.tail ∧ (s.vacate n).sealEng = nextRun s.recs s.sealQ) ∧
    (∀ (p : Port) (st : Stream), s.pius[p].stream = some st → st.ref = ⟨n, s.recs[n].gen⟩ → st.earned = none →
      (s.vacate n).pius[p] =
        { s.pius[p] with
          stream := some { st with revoked := true, shift := st.shift.map (fun _ => 0xFF) }
          staging := { base := 0, cells := Vector.replicate 16 none, req := .none } }) ∧
    (∀ p : Port, (∀ st, s.pius[p].stream = some st → st.ref ≠ ⟨n, s.recs[n].gen⟩ ∨ st.earned ≠ none) →
      (s.vacate n).pius[p] = s.pius[p]) ∧
    (∀ p : Port, (s.vacate n).inqs[p] =
      { s.inqs[p] with
        entries := s.inqs[p].entries.map
          (fun e => if e.ref = ⟨n, s.recs[n].gen⟩ then { e with void := true } else e) }) ∧
    (s.vacate n).store = s.store ∧ (s.vacate n).clearEng = s.clearEng ∧ (s.vacate n).arbPos = s.arbPos ∧
    (s.vacate n).notqs = s.notqs ∧ (s.vacate n).divider = s.divider ∧ (s.vacate n).claimLease = s.claimLease ∧
    (s.vacate n).edges = s.edges ∧ (s.vacate n).enables = s.enables ∧ (s.vacate n).committed = s.committed ∧
    (s.vacate n).claim = s.claim ∧ (s.vacate n).resetn = s.resetn ∧ (s.vacate n).ready = s.ready ∧
    (s.vacate n).pending = s.pending

/-- EXTEND_CHAIN when it passes its checks (R43, R44): with no block needed, and with blocks from the Free List's head,
the fall of the free count compared once (`WatermarkCompared`). -/
def Obligations.ExtendChainGrows : Prop :=
  ∀ (s : State) (p : Port) (nb gb hi lo : Byte) (n : ChainNo) (l : Label) (len k : Nat),
    Waits s p .extendChain [nb, gb, hi, lo] → Names s nb gb n → s.recs[n].life = .opened p l →
    1 ≤ (hi ++ lo).toNat → (hi ++ lo).toNat ≤ 8192 → len = s.recs[n].length + (hi ++ lo).toNat → len ≤ 8192 →
    k = (len + 127) / 128 - (s.recs[n].length + 127) / 128 →
    (k = 0 →
      exec (.extendChain p .rise) s = .next
        { s with
          recs := s.recs.set n { s.recs[n] with length := len }
          leases := s.leases.set n (loaded (s.committed.ownerLease p) s.recs[n].gen)
          pius := s.pius.set p (s.pius[p].answered 0x23 ⟨.ok, w16 len, 0⟩) }) ∧
    (0 < k → s.chBlocks[p] + k ≤ s.committed.blockQuota p → k ≤ s.free.length →
      exec (.extendChain p .rise) s = .next
        { s.freeFalls (s.free.drop k) with
          recs := s.recs.set n { s.recs[n] with length := len, blocks := s.recs[n].blocks ++ s.free.take k }
          chBlocks := s.chBlocks.set p (s.chBlocks[p] + k)
          leases := s.leases.set n (loaded (s.committed.ownerLease p) s.recs[n].gen)
          pius := s.pius.set p (s.pius[p].answered 0x23 ⟨.ok, w16 len, w16 k⟩) })

/-- EXTEND_CHAIN's four checks in order, with their values; a refused one changes nothing (R43). -/
def Obligations.ExtendChainRefused : Prop :=
  ∀ (s : State) (p : Port) (nb gb hi lo : Byte) (n : ChainNo) (l : Label) (len k : Nat),
    Waits s p .extendChain [nb, gb, hi, lo] → Names s nb gb n → s.recs[n].life = .opened p l →
    len = s.recs[n].length + (hi ++ lo).toNat → k = (len + 127) / 128 - (s.recs[n].length + 127) / 128 →
    ((hi ++ lo).toNat = 0 ∨ 8192 < (hi ++ lo).toNat →
      exec (.extendChain p .rise) s = .next (s.answers p 0x23 ⟨.range, 0, 0⟩)) ∧
    (1 ≤ (hi ++ lo).toNat → (hi ++ lo).toNat ≤ 8192 → 8192 < len →
      exec (.extendChain p .rise) s = .next (s.answers p 0x23 ⟨.tooLong, w16 s.recs[n].length, hi ++ lo⟩)) ∧
    (1 ≤ (hi ++ lo).toNat → len ≤ 8192 → 0 < k → s.committed.blockQuota p < s.chBlocks[p] + k →
      exec (.extendChain p .rise) s =
        .next (s.answers p 0x23 ⟨.quotaBlocks, w16 s.chBlocks[p], w16 (s.committed.blockQuota p)⟩)) ∧
    (1 ≤ (hi ++ lo).toNat → len ≤ 8192 → 0 < k → s.chBlocks[p] + k ≤ s.committed.blockQuota p →
      s.free.length < k →
      exec (.extendChain p .rise) s = .next (s.answers p 0x23 ⟨.noBlock, w16 s.free.length, w16 k⟩))

/-- The watermark (R25): a fall of the free count is compared with the low mark, and a trip raises LOW_FREE at every
enabled port; a rise is compared with the high mark, and a re-arm raises nothing. -/
def Obligations.WatermarkCompared : Prop :=
  ∀ (s : State) (l : List Nat),
    (s.watermark = .armed → l.length < s.committed.lowMark →
      s.freeFalls l =
        { s with
          free := l
          watermark := .tripped
          edges := Vector.ofFn (fun q : Port => if s.isEnabled q then s.edges[q] ||| 0x04 else s.edges[q]) }) ∧
    (s.watermark = .tripped ∨ s.committed.lowMark ≤ l.length → s.freeFalls l = { s with free := l }) ∧
    (s.watermark = .tripped → s.committed.highMark ≤ l.length →
      s.freeRises l = { s with free := l, watermark := .armed }) ∧
    (s.watermark = .armed ∨ l.length < s.committed.highMark → s.freeRises l = { s with free := l })

/-- RENEW_LEASE (R108): the counter is loaded by the record's state; nothing else of the record changes. -/
def Obligations.RenewLeaseLoads : Prop :=
  ∀ (s : State) (p : Port) (nb gb : Byte) (n : ChainNo),
    Waits s p .renewLease [nb, gb] → Names s nb gb n →
    (∀ o, s.recs[n].life.owner = some o → o = p →
      exec (.renewLease p .rise) s = .next
        { s with
          leases := s.leases.set n (loaded (s.committed.ownerLease p) s.recs[n].gen)
          pius := s.pius.set p (s.pius[p].answered 0x28
            ⟨.ok, w16 (s.committed.ownerLease p), w16 s.recs[n].life.phase.code⟩) }) ∧
    (∀ d, s.recs[n].life.delivery = some d →
      d.origin = p ∨ inSet d.pend p = true ∨ inSet d.hold p = true →
      exec (.renewLease p .rise) s = .next
        { s with
          leases := s.leases.set n (loaded s.committed.deliveryLease s.recs[n].gen)
          pius := s.pius.set p (s.pius[p].answered 0x28 ⟨.ok, w16 s.committed.deliveryLease, 4⟩) })

/-! ### Streams -/

/-- A stream is accepted or refused when its last operand byte is whole (R34, R35). That the generation and the state code
of a refusal are those of that moment is the model's reading (log entry 13), and the address 0 of a staging line that
stands for no line is its choice (log entry 22). -/
def Obligations.StreamsTaken : Prop :=
  ∀ (s : State) (p : Port) (c : Cmd) (kind : StreamKind) (nb gb : Byte) (more ops : List Byte) (x : Byte)
    (offset : Nat),
    ((c, kind) = (Cmd.appendData, StreamKind.append) ∨ (c, kind) = (Cmd.rewriteData, StreamKind.rewrite) ∨
      (c, kind) = (Cmd.readData, StreamKind.read)) →
    AtOperand s p c ops → ops ++ [x] = nb :: gb :: more → ops.length + 1 = c.operandCount → s.isEnabled p = true →
    offset = (if kind = .append then 0 else (more.getD 0 0 ++ more.getD 1 0).toNat) →
    (64 ≤ nb.toNat ∨ 16 ≤ gb.toNat →
      exec (row c p (.operand x)) s = .next (s.setLink p (.body c (nb :: gb :: more) (.refused ⟨.range, 0, 0⟩)))) ∧
    (∀ n : ChainNo, nb.toNat = n.val → gb.toNat < 16 →
      (s.recs[n].life = .vacant ∨ s.recs[n].gen.toNat ≠ gb.toNat →
        exec (row c p (.operand x)) s =
          .next (s.setLink p (.body c (nb :: gb :: more)
            (.refused ⟨.stale, s.recs[n].gen.setWidth 16, w16 s.recs[n].life.phase.code⟩)))) ∧
      (s.recs[n].life ≠ .vacant → s.recs[n].gen.toNat = gb.toNat →
        (holdsRole c s.recs[n].life p = false →
          exec (row c p (.operand x)) s =
            .next (s.setLink p (.body c (nb :: gb :: more)
              (.refused ⟨.notYours, w16 s.recs[n].life.phase.code, 0⟩)))) ∧
        (s.recs[n].life.owner = some p → s.recs[n].life.phase ∉ ownerStates c →
          exec (row c p (.operand x)) s =
            .next (s.setLink p (.body c (nb :: gb :: more)
              (.refused ⟨.wrongState, w16 s.recs[n].life.phase.code, 0⟩)))) ∧
        ((s.recs[n].life.owner = some p ∧ s.recs[n].life.phase ∈ ownerStates c) ∨
            (kind = .read ∧ s.recs[n].life.hasRole p .holder = true) →
          (8192 ≤ offset →
            exec (row c p (.operand x)) s =
              .next (s.setLink p (.body c (nb :: gb :: more) (.refused ⟨.range, 0, 0⟩)))) ∧
          (offset < 8192 →
            exec (row c p (.operand x)) s = .next
              { s with
                leases := s.leases.set n (loadedFor s.committed s.recs[n].gen s.recs[n].life)
                pius := s.pius.set p
                  { s.pius[p] with
                    link := .body c (nb :: gb :: more) .streaming
                    wire := { bits := [], out := none }
                    stream := some
                      { kind := kind, ref := ⟨n, s.recs[n].gen⟩, start := offset, offset := offset, count := 0,
                        short := false, stopped := none, shift := none, revoked := false, closing := false,
                        earned := none }
                    staging :=
                      if kind = .read ∧ offset < s.recs[n].length then
                        { base := lineBase s.recs[n].blocks offset, cells := Vector.replicate 16 none, req := .fill }
                      else { base := 0, cells := Vector.replicate 16 none, req := .none } } }))))

/-- APPEND_DATA_BYTE (R37 to R39): a byte inside the last block, a byte that starts a new block, a byte that fails one of
the three checks in their order, and a byte that finds the stream stopped or ended. First the address map: chain offset k
is byte k mod 128 of block k/128 of the list, in line (k mod 128)/16 of it (R3, R18, R28). -/
def Obligations.AppendByteTaken : Prop :=
  (∀ (blocks : List Nat) (k : Nat),
    byteAddr blocks k = 128 * blocks.getD (k / 128) 0 + k % 128 ∧
    lineBase blocks k = 128 * blocks.getD (k / 128) 0 + 16 * (k % 128 / 16)) ∧
  ∀ (s : State) (p : Port) (ops : List Byte) (st : Stream) (x : Byte) (r : ChainRec) (g : Staging),
    Streams s p .appendData ops st → AtByte s p → r = s.recs[st.ref.num] → g = s.pius[p].staging →
    (st.shift = none → s.pnDO p = some 0xFF) ∧
    (st.revoked = true ∨ st.stopped ≠ none → exec (.appendDataByte p x) s = .next (s.byteEnd p)) ∧
    (st.revoked = false → st.stopped = none → g.req = .none →
      (r.length % 128 ≠ 0 →
        exec (.appendDataByte p x) s = .next
          { s with
            recs := s.recs.set st.ref.num { r with length := r.length + 1 }
            pius := s.pius.set p
              { s.pius[p] with
                wire := { bits := [], out := none }
                stream := some { st with count := st.count + 1 }
                staging :=
                  { base := lineBase r.blocks r.length
                    cells := g.cells.set (r.length % 16) (some x) (Nat.mod_lt _ (by decide))
                    req := if r.length % 16 = 15 then .write else .none } } }) ∧
      (∀ b rest, r.length % 128 = 0 → r.blocks.length < 64 → s.chBlocks[p] < s.committed.blockQuota p →
        s.free = b :: rest →
        exec (.appendDataByte p x) s = .next
          { s.freeFalls rest with
            recs := s.recs.set st.ref.num { r with length := r.length + 1, blocks := r.blocks ++ [b] }
            chBlocks := s.chBlocks.set p (s.chBlocks[p] + 1)
            pius := s.pius.set p
              { s.pius[p] with
                wire := { bits := [], out := none }
                stream := some { st with count := st.count + 1 }
                staging :=
                  { base := lineBase (r.blocks ++ [b]) r.length
                    cells := g.cells.set 0 (some x)
                    req := .none } } }) ∧
      (∀ why : ResultCode,
        r.length % 128 = 0 →
        (64 ≤ r.blocks.length ∧ why = .tooLong) ∨
        (r.blocks.length < 64 ∧ s.committed.blockQuota p ≤ s.chBlocks[p] ∧ why = .quotaBlocks) ∨
        (r.blocks.length < 64 ∧ s.chBlocks[p] < s.committed.blockQuota p ∧ s.free = [] ∧ why = .noBlock) →
        exec (.appendDataByte p x) s = .next
          { s with
            pius := s.pius.set p
              { s.pius[p] with
                wire := { bits := [], out := none }
                stream := some { st with stopped := some why } } }))

/-- REWRITE_DATA_BYTE (R41), and the bytes of a Read Data (R46): what PnDO drives, FFh during the dummy byte and then the
byte in the output stage; the dummy byte's end and each delivery, after which the next byte enters the stage, real below
the length and FFh at or past it, with the request for the next line (R30). When a byte enters the output stage is the
model's reading (log entry 28). -/
def Obligations.RewriteAndReadBytes : Prop :=
  (∀ (s : State) (p : Port) (ops : List Byte) (st : Stream) (x : Byte) (r : ChainRec) (g : Staging),
    Streams s p .rewriteData ops st → AtByte s p → r = s.recs[st.ref.num] → g = s.pius[p].staging →
    (st.shift = none → s.pnDO p = some 0xFF) ∧
    (st.revoked = true → exec (.rewriteDataByte p x) s = .next (s.byteEnd p)) ∧
    (st.revoked = false → st.stopped = none → g.req = .none →
      (st.offset < r.length →
        exec (.rewriteDataByte p x) s = .next
          { s with
            pius := s.pius.set p
              { s.pius[p] with
                wire := { bits := [], out := none }
                stream := some { st with offset := st.offset + 1, count := st.count + 1 }
                staging :=
                  { base := lineBase r.blocks st.offset
                    cells := g.cells.set (st.offset % 16) (some x) (Nat.mod_lt _ (by decide))
                    req := if st.offset % 16 = 15 then .write else .none } } }) ∧
      (r.length ≤ st.offset →
        exec (.rewriteDataByte p x) s = .next
          { s with
            pius := s.pius.set p
              { s.pius[p] with
                wire := { bits := [], out := none }
                stream := some { st with offset := st.offset + 1, short := true } } }))) ∧
  (∀ (s : State) (p : Port) (ops : List Byte) (st : Stream), Streams s p .readData ops st →
    (st.shift = none → s.pnDO p = some 0xFF) ∧ (∀ b, st.shift = some b → s.pnDO p = some b)) ∧
  (∀ (s : State) (p : Port) (ops : List Byte) (st st' : Stream) (r : ChainRec) (g : Staging) (i : Instr),
    Streams s p .readData ops st → AtByte s p → r = s.recs[st.ref.num] → g = s.pius[p].staging →
    ((i = .readData p .pass ∧ st.shift = none ∧ st' = st) ∨
     (i = .readDataByte p ∧ st.shift ≠ none ∧
       st' = (if st.revoked = true then st
         else if st.offset < r.length then { st with offset := st.offset + 1, count := st.count + 1 }
         else { st with offset := st.offset + 1, short := true }))) →
    (st'.revoked = true ∨ r.length ≤ st'.offset →
      exec i s = .next
        { s with
          pius := s.pius.set p
            { s.pius[p] with
              wire := { bits := [], out := none }
              stream := some { st' with shift := some 0xFF } } }) ∧
    (∀ b, st'.revoked = false → st'.offset < r.length → g.req = .none →
      g.cells[st'.offset % 16]'(Nat.mod_lt _ (by decide)) = some b →
      exec i s = .next
        { s with
          pius := s.pius.set p
            { s.pius[p] with
              wire := { bits := [], out := none }
              stream := some { st' with shift := some b }
              staging :=
                if st'.offset % 16 = 15 ∧ st'.offset + 1 < r.length then
                  { base := lineBase r.blocks (st'.offset + 1), cells := Vector.replicate 16 none, req := .fill }
                else g } }))

/-- STAGING_LINE_WRITE and STAGING_LINE_FILL (R27 to R30): the placed bytes, and only they, land in the array at the
line's address; a fill takes the line's 16 bytes as they stand. Every other byte of the array keeps its value. With the
write a stream whose select has risen is no longer in progress: the outcome it has earned stands (R29). Where no such access waits, a vacate or a withdrawal having
taken it away, nothing happens (R31, log entry 3). The address 0 of the emptied line is the model's choice (log entry
22). -/
def Obligations.StagingLineAccess : Prop :=
  (∀ (s : State) (p : Port), s.pius[p].staging.req ≠ .write → exec (.stagingLineWrite p) s = .next s) ∧
  (∀ (s : State) (p : Port), s.pius[p].staging.req ≠ .fill → exec (.stagingLineFill p) s = .next s) ∧
  ∀ (s : State) (p : Port) (g : Staging), g = s.pius[p].staging → StoreInv s → s.nextGrant = some (.piu p) →
    (g.req = .write →
      ∃ m, exec (.stagingLineWrite p) s = .next
          { s with
            store := m
            arbPos := .piu p
            pius := s.pius.set p
              { s.pius[p] with
                staging := { base := 0, cells := Vector.replicate 16 none, req := .none }
                stream := s.pius[p].stream.map (fun st =>
                  if st.closing = true then
                    { st with earned := some (outcomeOf st s.recs[st.ref.num].length) }
                  else st) } } ∧
        (∀ (i : Fin 16) (b : Byte), g.cells[i] = some b → Memory.read m (g.base + i.val) = b) ∧
        (∀ i : Fin 16, g.cells[i] = none → Memory.read m (g.base + i.val) = Memory.read s.store (g.base + i.val)) ∧
        (∀ a : Nat, a < g.base ∨ g.base + 16 ≤ a → Memory.read m a = Memory.read s.store a)) ∧
    (g.req = .fill →
      exec (.stagingLineFill p) s = .next
        { s with
          arbPos := .piu p
          pius := s.pius.set p
            { s.pius[p] with
              staging :=
                { base := g.base
                  cells := Vector.ofFn (fun i : Fin 16 => some (Memory.read s.store (g.base + i.val)))
                  req := .none } } })

/-- STREAM_CLOSE (R29, R40, R42, R47, R49): with placed bytes not yet written the recording waits for their grant;
otherwise, and after it, the outcome the stream has earned is recorded and the stream is over: what it earned at its last
write, whatever became of the chain since. A Read Data's request still waiting goes with it, and an empty line's address
is 0, by the model's choice (log entries 11, 22). Where no closed stream waits for its recording, as after a withdrawal (R51),
nothing is recorded (log entry 3). -/
def Obligations.StreamCloseRecords : Prop :=
  (∀ (s : State) (p : Port), (∀ st, s.pius[p].stream = some st → st.closing = false) →
    exec (.streamClose p .record) s = .next s) ∧
  ∀ (s : State) (p : Port) (st : Stream) (len : Nat) (e : Ending),
    s.pius[p].stream = some st → len = s.recs[st.ref.num].length →
    e = (match st.earned with | some e => e | none => outcomeOf st len) →
    (∀ ops, InBody s p st.kind.cmd ops .streaming →
      (st.kind ≠ .read → (∃ i : Fin 16, s.pius[p].staging.cells[i] ≠ none) →
        exec (.streamClose p .rise) s = .next
          { s with
            pius := s.pius.set p
              { s.pius[p].closed with
                stream := some { st with closing := true }
                staging := { s.pius[p].staging with req := .write } } }) ∧
      (st.kind = .read ∨ (∀ i : Fin 16, s.pius[p].staging.cells[i] = none) →
        exec (.streamClose p .rise) s = .next
          { s with
            pius := s.pius.set p
              { s.pius[p].answered st.kind.cmd.code e with
                stream := none
                staging := { base := 0, cells := Vector.replicate 16 none, req := .none } } })) ∧
    (st.closing = true → s.pius[p].staging.req = .none →
      exec (.streamClose p .record) s = .next
        { s with
          pius := s.pius.set p
            { s.pius[p] with
              result := { seq := s.pius[p].result.seq + 1, command := st.kind.cmd.code, ending := e }
              stream := none
              staging := { base := 0, cells := Vector.replicate 16 none, req := .none } } })

/-- The Store Arbiter's ring (R27): the next grant goes to the waiting requester nearest after the position. -/
def Obligations.GrantRing : Prop :=
  ∀ (s : State) (r : Requester),
    s.nextGrant = some r ↔
      s.waiting r = true ∧ ∀ r', s.waiting r' = true → ringDistance s.arbPos r ≤ ringDistance s.arbPos r'

/-! ### Sealing -/

/-- SEAL_CHAIN and UNSEAL_CHAIN (R54, R55, R59, R60). -/
def Obligations.SealAndUnseal : Prop :=
  ∀ (s : State) (p : Port) (nb gb : Byte) (n : ChainNo) (l : Label), Names s nb gb n →
    (Waits s p .sealChain [nb, gb] → s.recs[n].life = .opened p l →
      (s.sealEng = none → s.sealQ = [] →
        exec (.sealChain p .rise) s = .next
          { s with
            recs := s.recs.set n { s.recs[n] with life := .sealing p l }
            leases := s.leases.set n (loaded (s.committed.ownerLease p) s.recs[n].gen)
            sealEng := some
              { ref := ⟨n, s.recs[n].gen⟩, length := s.recs[n].length, next := 0, reg := 0xFFFF,
                finishing := s.recs[n].length = 0 }
            pius := s.pius.set p (s.pius[p].answered 0x25 ⟨.ok, 0, w16 s.recs[n].length⟩) }) ∧
      (∀ run, s.sealEng = some run →
        exec (.sealChain p .rise) s = .next
          { s with
            recs := s.recs.set n { s.recs[n] with life := .sealing p l }
            leases := s.leases.set n (loaded (s.committed.ownerLease p) s.recs[n].gen)
            sealQ := s.sealQ ++ [⟨n, s.recs[n].gen⟩]
            pius := s.pius.set p
              (s.pius[p].answered 0x25 ⟨.ok, w16 (s.sealQ.length + 1), w16 s.recs[n].length⟩) })) ∧
    (Waits s p .unsealChain [nb, gb] →
      (∀ k, s.recs[n].life = .sealed p l k →
        exec (.unsealChain p .rise) s = .next
          { s with
            recs := s.recs.set n { s.recs[n] with life := .opened p l }
            leases := s.leases.set n (loaded (s.committed.ownerLease p) s.recs[n].gen)
            pius := s.pius.set p (s.pius[p].answered 0x26 ⟨.ok, 3, w16 s.recs[n].length⟩) }) ∧
      (s.recs[n].life = .sealing p l → (∀ run, s.sealEng = some run → run.ref.num ≠ n) →
        exec (.unsealChain p .rise) s = .next
          { s with
            recs := s.recs.set n { s.recs[n] with life := .opened p l }
            leases := s.leases.set n (loaded (s.committed.ownerLease p) s.recs[n].gen)
            sealQ := s.sealQ.filter (fun r => r.num ≠ n)
            pius := s.pius.set p (s.pius[p].answered 0x26 ⟨.ok, 2, w16 s.recs[n].length⟩) }) ∧
      (∀ run, s.recs[n].life = .sealing p l → s.sealEng = some run → run.ref.num = n →
        exec (.unsealChain p .rise) s = .next
          { s with
            recs := s.recs.set n { s.recs[n] with life := .opened p l }
            leases := s.leases.set n (loaded (s.committed.ownerLease p) s.recs[n].gen)
            sealQ := s.sealQ.tail
            sealEng := nextRun s.recs s.sealQ
            pius := s.pius.set p (s.pius[p].answered 0x26 ⟨.ok, 2, w16 s.recs[n].length⟩) }))

/-- SEAL_LINE_READ (R56): the granted line is processed up to its end or the length; a register that held the CRC of the
bytes before holds the CRC of the bytes up to the new offset. An engine that asks for no line, its request withdrawn by an
abort, reads none (R60, log entry 3). -/
def Obligations.SealLineRead : Prop :=
  (∀ s : State, (∀ run, s.sealEng = some run → run.finishing = true) → exec .sealLineRead s = .next s) ∧
  ∀ (s : State) (run : SealRun) (blocks : List Nat) (stop : Nat), s.sealEng = some run →
    s.nextGrant = some .sealEngine → blocks = s.recs[run.ref.num].blocks →
    stop = min ((run.next / 16 + 1) * 16) run.length →
    exec .sealLineRead s = .next
      { s with
        arbPos := .sealEngine
        sealEng := some
          { run with
            next := stop
            reg := (chainBytes s.store blocks run.next (stop - run.next)).foldl crcByte run.reg
            finishing := stop = run.length } } ∧
    (run.next ≤ run.length → run.reg = crc (chainBytes s.store blocks 0 run.next) →
      (chainBytes s.store blocks run.next (stop - run.next)).foldl crcByte run.reg =
        crc (chainBytes s.store blocks 0 stop))

/-- SEAL_COMPLETION (R58): the chain becomes SEALED with the register as check value, the SEALED notice goes to the owner,
and the engine takes the next chain; a completion for another generation or state is dropped, the run ended all the
same. A completion that is not raised, or that a cancellation has withdrawn, is not taken (R60, R61). -/
def Obligations.SealCompletion : Prop :=
  (∀ s : State, (∀ run, s.sealEng = some run → run.finishing = false) → exec .sealCompletion s = .next s) ∧
  ∀ (s : State) (run : SealRun) (r : ChainRec), s.sealEng = some run → run.finishing = true →
    r = s.recs[run.ref.num] →
    (∀ o l, r.life = .sealing o l → r.gen = run.ref.gen →
      exec .sealCompletion s = .next
        { s.offer o (.sealed run.ref l.tag run.reg r.length) with
          recs := s.recs.set run.ref.num { r with life := .sealed o l run.reg }
          sealQ := s.sealQ.tail
          sealEng := nextRun s.recs s.sealQ }) ∧
    (r.life.phase ≠ .sealing ∨ r.gen ≠ run.ref.gen →
      exec .sealCompletion s = .next { s with sealQ := s.sealQ.tail, sealEng := nextRun s.recs s.sealQ })

/-- R57: the check value by its parameters (polynomial 1021h, initial register FFFFh, bytes in ascending offset, most
significant bit first, nothing reflected or inverted) and the three reference values. -/
def Obligations.CheckValue : Prop :=
  crc [] = 0xFFFF ∧ crc [0x00] = 0xE1F0 ∧
  crc [0x31, 0x32, 0x33, 0x34, 0x35, 0x36, 0x37, 0x38, 0x39] = 0x29B1 ∧
  (∀ (l : List Byte) (b : Byte),
    crc (l ++ [b]) =
      Nat.iterate (fun r : Word => if r.getLsbD 15 then (r <<< 1) ^^^ 0x1021 else r <<< 1) 8
        (crc l ^^^ (b.setWidth 16 <<< 8))) ∧
  (∀ (m m' : Memory) (blocks blocks' : List Nat) (n : Nat),
    (∀ k, k < n → Memory.read m (byteAddr blocks k) = Memory.read m' (byteAddr blocks' k)) →
    crc (chainBytes m blocks 0 n) = crc (chainBytes m' blocks' 0 n))

/-! ### Hand-off -/

/-- HAND_CHAIN when it passes its checks (R66, R67): the record, the lease, one live entry at the tail of each
destination's queue, and nothing else. -/
def Obligations.HandChainDelivers : Prop :=
  ∀ (s : State) (p : Port) (nb gb mask : Byte) (n : ChainNo) (l : Label) (k : Word) (dests : PortSet),
    Waits s p .handChain [nb, gb, mask] → Names s nb gb n → s.recs[n].life = .sealed p l k →
    dests = mask.setWidth 4 → mask ≠ 0 → mask.toNat < 16 → inSet dests p = false →
    (∀ q : Port, inSet dests q = true → s.isEnabled q = true ∧ s.inqs[q].entries.length < s.committed.depth q) →
    exec (.handChain p .rise) s = .next
      { s with
        recs := s.recs.set n
          { s.recs[n] with
            life := .delivering
              { origin := p, dests := dests, pend := dests, hold := 0, accepted := 0, refused := 0, withdrawn := 0 }
              l k }
        leases := s.leases.set n (loaded s.committed.deliveryLease s.recs[n].gen)
        inqs := Vector.ofFn (fun q : Port =>
          if inSet dests q then
            { s.inqs[q] with
              entries := s.inqs[q].entries ++
                [{ ref := ⟨n, s.recs[n].gen⟩, origin := p, hops := l.hops, tag := l.tag, length := s.recs[n].length,
                   void := false }]
              posted := (nextPlace (s.committed.depth q) s.inqs[q].posted s.inqs[q].postedLap).1
              postedLap := (nextPlace (s.committed.depth q) s.inqs[q].posted s.inqs[q].postedLap).2 }
          else s.inqs[q])
        pius := s.pius.set p (s.pius[p].answered 0x30 ⟨.ok, w16 (card dests), mask.setWidth 16⟩) }

/-- HAND_CHAIN's three checks in order, with their values; a refused one changes nothing (R65). -/
def Obligations.HandChainRefused : Prop :=
  ∀ (s : State) (p : Port) (nb gb mask : Byte) (n : ChainNo) (l : Label) (k : Word) (dests : PortSet),
    Waits s p .handChain [nb, gb, mask] → Names s nb gb n → s.recs[n].life = .sealed p l k →
    dests = mask.setWidth 4 →
    (mask = 0 ∨ 16 ≤ mask.toNat ∨ inSet dests p = true →
      exec (.handChain p .rise) s = .next (s.answers p 0x30 ⟨.destInvalid, mask.setWidth 16, 0⟩)) ∧
    (∀ q : Port, mask ≠ 0 → mask.toNat < 16 → inSet dests p = false → inSet dests q = true → s.isEnabled q = false →
      (∀ q' : Port, q' < q → inSet dests q' = true → s.isEnabled q' = true) →
      exec (.handChain p .rise) s =
        .next (s.answers p 0x30 ⟨.destDisabled, w16 q.val, s.committed.enableMask.setWidth 16⟩)) ∧
    (∀ q : Port, mask ≠ 0 → mask.toNat < 16 → inSet dests p = false →
      (∀ q' : Port, inSet dests q' = true → s.isEnabled q' = true) → inSet dests q = true →
      s.committed.depth q ≤ s.inqs[q].entries.length →
      (∀ q' : Port, q' < q → inSet dests q' = true → s.inqs[q'].entries.length < s.committed.depth q') →
      exec (.handChain p .rise) s =
        .next (s.answers p 0x30 ⟨.queueFull, w16 q.val, w16 (s.committed.depth q)⟩))

/-- TAKE_INBOUND (R75, R76): the entry fixed at the command byte, its 8 bytes, and the four outcomes at select rise with
their effects. -/
def Obligations.TakeInbound : Prop :=
  ∀ (s : State) (p : Port),
    (AtCommand s p → s.isEnabled p = true →
      exec (.takeInbound p .code) s =
        .next (s.setLink p (.body .takeInbound [] (.inbound s.inqs[p].entries.head? 0)))) ∧
    (∀ ops e k, InBody s p .takeInbound ops (.inbound (some e) k) →
      (k < 8 →
        s.pnDO p = ([b8 e.ref.num.val, e.ref.gen.setWidth 8, b8 e.origin.val, b8 e.hops.val] ++ be e.tag ++
          be (w16 e.length))[k]? ∧
        (AtByte s p →
          exec (.takeInbound p .pass) s =
            .next (s.setLink p (.body .takeInbound ops (.inbound (some e) (k + 1))))) ∧
        exec (.takeInbound p .rise) s =
          .next (s.answers p 0x31 ⟨.incomplete, w16 k, w16 s.inqs[p].entries.length⟩)) ∧
      (∀ e' es, 8 ≤ k → s.inqs[p].entries = e' :: es →
        s.pnDO p = some 0xFF ∧
        (e'.void = true →
          exec (.takeInbound p .rise) s = .next
            { s with
              inqs := s.inqs.set p
                { s.inqs[p] with
                  entries := es
                  taken := (nextPlace (s.committed.depth p) s.inqs[p].taken s.inqs[p].takenLap).1
                  takenLap := (nextPlace (s.committed.depth p) s.inqs[p].taken s.inqs[p].takenLap).2 }
              pius := s.pius.set p (s.pius[p].answered 0x31
                ⟨.void, w16 (e'.ref.num.val * 256 + e'.ref.gen.toNat), w16 es.length⟩) }) ∧
        (∀ d l c, e'.void = false → s.recs[e'.ref.num].life = .delivering d l c →
          s.recs[e'.ref.num].gen = e'.ref.gen →
          exec (.takeInbound p .rise) s = .next
            { s with
              inqs := s.inqs.set p
                { s.inqs[p] with
                  entries := es
                  taken := (nextPlace (s.committed.depth p) s.inqs[p].taken s.inqs[p].takenLap).1
                  takenLap := (nextPlace (s.committed.depth p) s.inqs[p].taken s.inqs[p].takenLap).2 }
              recs := s.recs.set e'.ref.num
                { s.recs[e'.ref.num] with
                  life := .delivering { d with pend := d.pend &&& ~~~ only p, hold := d.hold ||| only p } l c }
              leases := s.leases.set e'.ref.num (loaded s.committed.deliveryLease e'.ref.gen)
              pius := s.pius.set p (s.pius[p].answered 0x31
                ⟨.ok, w16 (e'.ref.num.val * 256 + e'.ref.gen.toNat), w16 es.length⟩) }))) ∧
    (∀ ops k, InBody s p .takeInbound ops (.inbound none k) →
      s.pnDO p = some 0xFF ∧ exec (.takeInbound p .rise) s = .next (s.answers p 0x31 ⟨.empty, 0, 0⟩))

/-- RELEASE_CHAIN (R81): the range of the disposition; a release that leaves a participant loads the lease; one that
leaves none sends CONSUMED to the origin and vacates the record. -/
def Obligations.ReleaseChain : Prop :=
  ∀ (s : State) (p : Port) (nb gb x : Byte) (n : ChainNo) (d d' : Delivery) (l : Label) (k : Word),
    Waits s p .releaseChain [nb, gb, x] → Names s nb gb n → s.recs[n].life = .delivering d l k →
    inSet d.hold p = true → inSet d.pend p = false →
    d' = { d with
      hold := d.hold &&& ~~~ only p
      accepted := d.accepted + (if x = 0 then 1 else 0)
      refused := d.refused + (if x = 1 then 1 else 0) } →
    (x ≠ 0 → x ≠ 1 → exec (.releaseChain p .rise) s = .next (s.answers p 0x32 ⟨.range, 0, 0⟩)) ∧
    (x = 0 ∨ x = 1 → d'.pend ≠ 0 ∨ d'.hold ≠ 0 →
      exec (.releaseChain p .rise) s = .next
        { s with
          recs := s.recs.set n { s.recs[n] with life := .delivering d' l k }
          leases := s.leases.set n (loaded s.committed.deliveryLease s.recs[n].gen)
          pius := s.pius.set p (s.pius[p].answered 0x32 ⟨.ok, w16 (card d'.pend + card d'.hold), 0⟩) }) ∧
    (x = 0 ∨ x = 1 → d'.pend = 0 → d'.hold = 0 →
      exec (.releaseChain p .rise) s = .next
        ((((({ s.deselect p with
              recs := s.recs.set n { s.recs[n] with life := .delivering d' l k } } : State).offer d.origin
            (.consumed ⟨n, s.recs[n].gen⟩ l.tag d'.accepted d'.refused d'.withdrawn (card d.dests))).vacate n).record
          p 0x32 ⟨.ok, 0, 1⟩)))

/-- ADOPT_CHAIN (R83, R84): the four checks in order, and the adoption as one event. -/
def Obligations.AdoptChain : Prop :=
  ∀ (s : State) (p : Port) (nb gb : Byte) (n : ChainNo) (d : Delivery) (l : Label) (k : Word),
    Waits s p .adoptChain [nb, gb] → Names s nb gb n → s.recs[n].life = .delivering d l k →
    inSet d.hold p = true → d.origin ≠ p →
    (d.hold ≠ only p ∨ d.pend ≠ 0 →
      exec (.adoptChain p .rise) s = .next (s.answers p 0x33 ⟨.notSole, w16 (card d.hold), w16 (card d.pend)⟩)) ∧
    (d.hold = only p → d.pend = 0 → l.hops = 7 →
      exec (.adoptChain p .rise) s = .next (s.answers p 0x33 ⟨.hops, 7, 0⟩)) ∧
    (d.hold = only p → d.pend = 0 → l.hops < 7 → s.committed.chainQuota p ≤ s.chChains[p] →
      exec (.adoptChain p .rise) s =
        .next (s.answers p 0x33 ⟨.quotaChains, w16 s.chChains[p], w16 (s.committed.chainQuota p)⟩)) ∧
    (d.hold = only p → d.pend = 0 → l.hops < 7 → s.chChains[p] < s.committed.chainQuota p →
      s.committed.blockQuota p < s.chBlocks[p] + s.recs[n].blocks.length →
      exec (.adoptChain p .rise) s =
        .next (s.answers p 0x33 ⟨.quotaBlocks, w16 s.chBlocks[p], w16 (s.committed.blockQuota p)⟩)) ∧
    (d.hold = only p → d.pend = 0 → l.hops < 7 → s.chChains[p] < s.committed.chainQuota p →
      s.chBlocks[p] + s.recs[n].blocks.length ≤ s.committed.blockQuota p →
      exec (.adoptChain p .rise) s = .next
        { s.offer d.origin
            (.consumed ⟨n, s.recs[n].gen⟩ l.tag (d.accepted + 1) d.refused d.withdrawn (card d.dests)) with
          recs := s.recs.set n { s.recs[n] with life := .sealed p ⟨l.tag, l.hops + 1⟩ k }
          chBlocks := (s.chBlocks.set d.origin (s.chBlocks[d.origin] - s.recs[n].blocks.length)).set p
            (s.chBlocks[p] + s.recs[n].blocks.length)
          chChains := (s.chChains.set d.origin (s.chChains[d.origin] - 1)).set p (s.chChains[p] + 1)
          leases := s.leases.set n (loaded (s.committed.ownerLease p) s.recs[n].gen)
          pius := s.pius.set p
            (s.pius[p].answered 0x33 ⟨.ok, w16 (l.hops.val + 1), w16 s.recs[n].blocks.length⟩) })

/-- RECALL_CHAIN (R86, R72): refused while a destination holds the chain; otherwise the pending entries are voided where
they stand and the record is SEALED under the origin again. -/
def Obligations.RecallChain : Prop :=
  ∀ (s : State) (p : Port) (nb gb : Byte) (n : ChainNo) (d : Delivery) (l : Label) (k : Word),
    Waits s p .recallChain [nb, gb] → Names s nb gb n → s.recs[n].life = .delivering d l k → d.origin = p →
    (d.hold ≠ 0 →
      exec (.recallChain p .rise) s = .next (s.answers p 0x34 ⟨.taken, w16 (card d.hold), w16 (card d.pend)⟩)) ∧
    (d.hold = 0 →
      exec (.recallChain p .rise) s = .next
        { s with
          recs := s.recs.set n { s.recs[n] with life := .sealed p l k }
          inqs := s.inqs.map (fun q =>
            { q with
              entries := q.entries.map
                (fun e => if e.ref = ⟨n, s.recs[n].gen⟩ then { e with void := true } else e) })
          leases := s.leases.set n (loaded (s.committed.ownerLease p) s.recs[n].gen)
          pius := s.pius.set p (s.pius[p].answered 0x34
            ⟨.ok,
              w16 (([0, 1, 2, 3] : List Port).map (fun q =>
                (s.inqs[q].entries.filter (fun e => e.ref = ⟨n, s.recs[n].gen⟩ && !e.void)).length)).sum,
              w16 (d.accepted + d.refused + d.withdrawn)⟩) })

/-! ### Notices and attention -/

/-- R90: a notice offered to a disabled port is dropped; at a full queue it is dropped and NOTICE_LOST raised; otherwise
it joins the tail. -/
def Obligations.NoticePlaced : Prop :=
  ∀ (s : State) (p : Port) (m : Notice),
    (s.isEnabled p = false → s.offer p m = s) ∧
    (s.isEnabled p = true → 8 ≤ s.notqs[p].length →
      s.offer p m = { s with edges := s.edges.set p (s.edges[p] ||| 0x20) }) ∧
    (s.isEnabled p = true → s.notqs[p].length < 8 →
      s.offer p m = { s with notqs := s.notqs.set p (s.notqs[p] ++ [m]) })

/-- TAKE_NOTICE (R92 to R99): the notice fixed at the command byte, its 10 bytes by kind, and the three outcomes. -/
def Obligations.TakeNotice : Prop :=
  ∀ (s : State) (p : Port),
    (AtCommand s p → s.isEnabled p = true →
      exec (.takeNotice p .code) s =
        .next (s.setLink p (.body .takeNotice [] (.notice s.notqs[p].head? 0)))) ∧
    (∀ ops m k, InBody s p .takeNotice ops (.notice (some m) k) →
      (k < 10 →
        s.pnDO p =
          (match m with
            | .sealed r tag check len =>
              [0x01, b8 r.num.val, r.gen.setWidth 8] ++ be tag ++ be check ++ be (w16 len) ++ [0]
            | .consumed r tag a f w n =>
              [0x02, b8 r.num.val, r.gen.setWidth 8] ++ be tag ++ [b8 a, b8 f, b8 w, b8 n, 0]
            | .expired r tag ph pend hold =>
              [0x03, b8 r.num.val, r.gen.setWidth 8] ++ be tag ++ [b8 ph.code, b8 pend, b8 hold, 0, 0]
            | .revoked r tag origin =>
              [0x04, b8 r.num.val, r.gen.setWidth 8] ++ be tag ++ [b8 origin.val, 0, 0, 0, 0]
            | .claimLapsed => [0x05, 0, 0, 0, 0, 0, 0, 0, 0, 0])[k]? ∧
        (AtByte s p →
          exec (.takeNotice p .pass) s =
            .next (s.setLink p (.body .takeNotice ops (.notice (some m) (k + 1))))) ∧
        exec (.takeNotice p .rise) s =
          .next (s.answers p 0x38 ⟨.incomplete, w16 k, w16 s.notqs[p].length⟩)) ∧
      (∀ ms, 10 ≤ k → s.notqs[p] = m :: ms →
        s.pnDO p = some 0xFF ∧
        exec (.takeNotice p .rise) s = .next
          { s with
            notqs := s.notqs.set p ms
            pius := s.pius.set p (s.pius[p].answered 0x38
              ⟨.ok, (match m with
                  | .sealed _ _ _ _ => 1 | .consumed _ _ _ _ _ _ => 2 | .expired _ _ _ _ _ => 3
                  | .revoked _ _ _ => 4 | .claimLapsed => 5),
                w16 ms.length⟩) })) ∧
    (∀ ops k, InBody s p .takeNotice ops (.notice none k) →
      s.pnDO p = some 0xFF ∧ exec (.takeNotice p .rise) s = .next (s.answers p 0x38 ⟨.empty, 0, 0⟩))

/-- R129, with R124 and R125: the request mask follows the queues and the edge requests; the line is low exactly while a
reason is both requested and enabled; the top reason is the highest such reason's code, 0 while the line is released. -/
def Obligations.AtnLine : Prop :=
  (∀ (s : State) (p : Port),
    ((s.requests p).getLsbD 0 = true ↔ s.inqs[p].entries ≠ []) ∧
    ((s.requests p).getLsbD 1 = true ↔ s.notqs[p] ≠ []) ∧
    (∀ k : Fin 6, 2 ≤ k.val → (s.requests p).getLsbD k.val = s.edges[p].getLsbD k.val) ∧
    (s.atnLow p = true ↔
      ∃ k : Fin 6, (s.requests p).getLsbD k.val = true ∧ s.enables[p].getLsbD k.val = true) ∧
    (s.topReason p = 0 ↔ s.atnLow p = false) ∧
    (∀ k : Fin 6, s.topReason p = k.val + 1 ↔
      (s.requests p).getLsbD k.val = true ∧ s.enables[p].getLsbD k.val = true ∧
      ∀ j : Fin 6, k < j → ¬((s.requests p).getLsbD j.val = true ∧ s.enables[p].getLsbD j.val = true))) ∧
  (∀ (s : State) (p : Port), AtReset s → s.atnLow p = false)

/-- R130, R131: SET_ENABLES and ACKNOWLEDGE_ATTENTION, refused with an upper bit set; what each writes and its two
values; every other flag keeps its value. -/
def Obligations.EnablesAndAcknowledge : Prop :=
  ∀ (s : State) (p : Port) (m : Byte),
    (Waits s p .setEnables [m] →
      (64 ≤ m.toNat → exec (.setEnables p .rise) s = .next (s.answers p 0x39 ⟨.range, 0, 0⟩)) ∧
      (m.toNat < 64 →
        exec (.setEnables p .rise) s = .next
          { s with
            enables := s.enables.set p (m.setWidth 6)
            pius := s.pius.set p
              (s.pius[p].answered 0x39 ⟨.ok, m.setWidth 16, (s.requests p).setWidth 16⟩) })) ∧
    (Waits s p .acknowledgeAttention [m] →
      (64 ≤ m.toNat → exec (.acknowledgeAttention p .rise) s = .next (s.answers p 0x3A ⟨.range, 0, 0⟩)) ∧
      (m.toNat < 64 →
        exec (.acknowledgeAttention p .rise) s = .next
          { s with
            edges := s.edges.set p (s.edges[p] &&& ~~~ (m.setWidth 6))
            pius := s.pius.set p (s.pius[p].answered 0x3A
              ⟨.ok, (s.edges[p] &&& 0x3C &&& m.setWidth 6).setWidth 16,
                (((s.edges[p] &&& ~~~ (m.setWidth 6)) &&& 0x3C) ||| s.levels p).setWidth 16⟩) }))

/-! ### Settings -/

/-- CLAIM_SETTINGS (R137) and ABANDON_SETTINGS (R143). -/
def Obligations.ClaimAndAbandon : Prop :=
  ∀ (s : State) (p : Port),
    (Waits s p .claimSettings [] →
      (s.claim = none →
        exec (.claimSettings p .rise) s = .next
          { s with
            claim := some ⟨p, s.committed⟩
            claimLease := .running 32
            pius := s.pius.set p (s.pius[p].answered 0x40 ⟨.ok, 32, 0⟩) }) ∧
      (∀ cl, s.claim = some cl → cl.holder ≠ p →
        exec (.claimSettings p .rise) s = .next (s.answers p 0x40 ⟨.claimHeld, w16 cl.holder.val, 0⟩)) ∧
      (∀ cl, s.claim = some cl → cl.holder = p →
        exec (.claimSettings p .rise) s = .next (s.answers p 0x40 ⟨.wrongState, w16 p.val, 0⟩))) ∧
    (Waits s p .abandonSettings [] →
      ((∀ cl, s.claim = some cl → cl.holder ≠ p) →
        exec (.abandonSettings p .rise) s = .next (s.answers p 0x43 ⟨.noClaim, 0, 0⟩)) ∧
      (∀ staged, s.claim = some ⟨p, staged⟩ →
        exec (.abandonSettings p .rise) s = .next
          { s with
            claim := none
            claimLease := .none
            pius := s.pius.set p
              (s.pius[p].answered 0x43 ⟨.ok, w16 (fieldsChanged staged s.committed), 0⟩) }))

/-- WRITE_SETTING (R139): the two checks in order; an accepted write changes one field of the staged copy and loads the
claim lease. -/
def Obligations.WriteSetting : Prop :=
  ∀ (s : State) (p : Port) (id hi lo : Byte), Waits s p .writeSetting [id, hi, lo] →
    ((∀ cl, s.claim = some cl → cl.holder ≠ p) →
      exec (.writeSetting p .rise) s = .next (s.answers p 0x41 ⟨.noClaim, 0, 0⟩)) ∧
    (∀ staged, s.claim = some ⟨p, staged⟩ → legalSetting id.toNat (hi ++ lo).toNat = false →
      exec (.writeSetting p .rise) s = .next (s.answers p 0x41 ⟨.range, id.setWidth 16, hi ++ lo⟩)) ∧
    (∀ (staged : Settings) (i : Fin 23), s.claim = some ⟨p, staged⟩ → id.toNat = i.val + 1 →
      legalSetting id.toNat (hi ++ lo).toNat = true →
      exec (.writeSetting p .rise) s = .next
        { s with
          claim := some ⟨p, { fields := staged.fields.set i (hi ++ lo) }⟩
          claimLease := .running 32
          pius := s.pius.set p (s.pius[p].answered 0x41 ⟨.ok, id.setWidth 16, hi ++ lo⟩) })

/-- COMMIT_SETTINGS refused (R140): NO_CLAIM, then the checks in field-ID order; nothing but the PIU changes. -/
def Obligations.CommitRefused : Prop :=
  ∀ (s : State) (p : Port), Waits s p .commitSettings [] →
    ((∀ cl, s.claim = some cl → cl.holder ≠ p) →
      exec (.commitSettings p .rise) s = .next (s.answers p 0x42 ⟨.noClaim, 0, 0⟩)) ∧
    (∀ staged, s.claim = some ⟨p, staged⟩ →
      (∀ q : Port, staged.depth q ≠ s.committed.depth q → s.inqs[q].entries ≠ [] →
        (∀ q' : Port, q' < q → staged.depth q' = s.committed.depth q' ∨ s.inqs[q'].entries = []) →
        exec (.commitSettings p .rise) s =
          .next (s.answers p 0x42 ⟨.badSetting, w16 (9 + q.val), w16 s.inqs[q].entries.length⟩)) ∧
      ((∀ q : Port, staged.depth q = s.committed.depth q ∨ s.inqs[q].entries = []) →
        (staged.highMark ≤ staged.lowMark →
          exec (.commitSettings p .rise) s =
            .next (s.answers p 0x42 ⟨.badSetting, 0x14, w16 staged.lowMark⟩)) ∧
        (staged.lowMark < staged.highMark → staged.enableMask = 0 →
          exec (.commitSettings p .rise) s = .next (s.answers p 0x42 ⟨.badSetting, 0x17, 0⟩))))

/-- COMMIT_SETTINGS applied (R141): the whole next state with no port newly disabled; with one, through its withdrawal
(`PortResetWithdraws` says what that is); and with several, for an order of them that the model leaves free (log entry 9).
A port that the commit enables keeps its notice queue and its requests through the withdrawals (R101, R152; log entry
30). -/
def Obligations.CommitApplies : Prop :=
  ∀ (s s1 : State) (p : Port) (staged : Settings) (finish : State → State),
    Waits s p .commitSettings [] → s.claim = some ⟨p, staged⟩ →
    (∀ q : Port, staged.depth q = s.committed.depth q ∨ s.inqs[q].entries = []) →
    staged.lowMark < staged.highMark → staged.enableMask ≠ 0 →
    s1 = { s with
      committed := staged
      inqs := Vector.ofFn (fun q : Port =>
        if staged.depth q = s.committed.depth q then s.inqs[q]
        else { s.inqs[q] with posted := 0, taken := 0, postedLap := 0, takenLap := 0 })
      divider := if staged.tickSelect = s.committed.tickSelect then s.divider else 0
      pius := s.pius.set p s.pius[p].closed } →
    finish = (fun u => { u with
      claim := none
      claimLease := .none
      notqs := Vector.ofFn (fun q : Port =>
        if inSet staged.enableMask q = true ∧ inSet s.committed.enableMask q = false then s.notqs[q] else u.notqs[q])
      edges := Vector.ofFn (fun q : Port =>
        (if inSet staged.enableMask q = true ∧ inSet s.committed.enableMask q = false then s.edges[q] else u.edges[q]) |||
          (if inSet staged.enableMask q = true ∧ q ≠ p then 0x08 else 0))
      pius :=
        if inSet staged.enableMask p = true then
          u.pius.set p { u.pius[p] with
            result :=
              { seq := u.pius[p].result.seq + 1
                command := 0x42
                ending := ⟨.ok, w16 (fieldsChanged staged s.committed),
                  (s.committed.enableMask &&& ~~~ staged.enableMask).setWidth 16⟩ } }
        else u.pius }) →
    (s.committed.enableMask &&& ~~~ staged.enableMask = 0 → exec (.commitSettings p .rise) s = .next (finish s1)) ∧
    (∀ q : Port, s.committed.enableMask &&& ~~~ staged.enableMask = only q →
      exec (.commitSettings p .rise) s =
        .next (finish (s1.withdraw q { seq := 0, command := 0x42, ending := ⟨.disabled, 0, 0⟩ }))) ∧
    (∃ order : List Port,
      order.Nodup ∧
      (∀ q, q ∈ order ↔ inSet s.committed.enableMask q = true ∧ inSet staged.enableMask q = false) ∧
      exec (.commitSettings p .rise) s =
        .next (finish (order.foldl
          (fun u q => u.withdraw q { seq := 0, command := 0x42, ending := ⟨.disabled, 0, 0⟩ }) s1))) ∧
    (∀ t, exec (.commitSettings p .rise) s = .next t →
      t.committed = staged ∧ t.claim = none ∧ t.claimLease = .none ∧
      t.divider = (if staged.tickSelect = s.committed.tickSelect then s.divider else 0) ∧
      ∀ q : Port, inSet s.committed.enableMask q = true → inSet staged.enableMask q = false →
        t.pius[q].result = { seq := 0, command := 0x42, ending := ⟨.disabled, 0, 0⟩ } ∧
        t.inqs[q].entries = [] ∧ t.notqs[q] = [] ∧ t.edges[q] = 0 ∧ t.enables[q] = 0 ∧
        ∀ n : ChainNo, t.recs[n].life.touches q = false)

/-! ### Withdrawal -/

/-- PORT_RESET (R145) withdraws an enabled port, its Result record then 5Fh OK with sequence 0; and what a withdrawal of
port p does (R146 to R150). For some order of the chains that p owns or takes part in, which the model leaves free (log
entry 8), the next state is that of their turns one after another (`withoutPort`: the vacates, the departures, the CONSUMED
notices, the blocks released) and of the port stripped (`stripped`). With no such chain, or one, that is one state. And for
every order: its own chains are vacated, it departs from the deliveries it is in, other records keep their values; its link
goes on or ends; what other ports and blocks keep. The model's own are the count `fresh` (log
entry 10), that a refusal ends (log entry 12), the address 0 of the emptied staging line (log entry 22), and that a stream
which has earned its outcome keeps it while one ended by a vacate does not (log entry 29). -/
def Obligations.PortResetWithdraws : Prop :=
  (∀ (s : State) (p : Port), Waits s p .portReset [] →
    exec (.portReset p .rise) s =
      .next ((s.deselect p).withdraw p { seq := 0, command := 0x5F, ending := ⟨.ok, 0, 0⟩ })) ∧
  ∀ (s t : State) (p : Port) (res : ResultRec), t = s.withdraw p res →
    ((∀ n : ChainNo, s.recs[n].life.touches p = false) → t = s.stripped p res) ∧
    (∀ n : ChainNo, s.recs[n].life.touches p = true →
      (∀ m : ChainNo, s.recs[m].life.touches p = true → m = n) → t = (s.withoutPort p n).stripped p res) ∧
    (∃ order : List ChainNo, order.Nodup ∧ (∀ n, n ∈ order ↔ s.recs[n].life.touches p = true) ∧
      t = (order.foldl (State.withoutPort p) s).stripped p res) ∧
    (∀ n : ChainNo,
      (s.recs[n].life.owner = some p →
        t.recs[n] = { gen := s.recs[n].gen + 1, life := .vacant, length := 0, blocks := [] } ∧
        t.leases[n] = .none) ∧
      (∀ d l k, s.recs[n].life = .delivering d l k → inSet d.pend p = true ∨ inSet d.hold p = true →
        ((d.less p).pend = 0 → (d.less p).hold = 0 →
          t.recs[n] = { gen := s.recs[n].gen + 1, life := .vacant, length := 0, blocks := [] } ∧
          t.leases[n] = .none) ∧
        ((d.less p).pend ≠ 0 ∨ (d.less p).hold ≠ 0 →
          t.recs[n] = { s.recs[n] with life := .delivering (d.less p) l k } ∧ t.leases[n] = s.leases[n])) ∧
      (s.recs[n].life.touches p = false → t.recs[n] = s.recs[n] ∧ t.leases[n] = s.leases[n])) ∧
    t.inqs[p] = { entries := [], posted := 0, taken := 0, postedLap := 0, takenLap := 0 } ∧
    t.notqs[p] = [] ∧ t.edges[p] = 0 ∧ t.enables[p] = 0 ∧
    (∀ cl, s.claim = some cl → cl.holder = p → t.claim = none ∧ t.claimLease = .none) ∧
    ((∀ cl, s.claim = some cl → cl.holder ≠ p) → t.claim = s.claim ∧ t.claimLease = s.claimLease) ∧
    t.pius[p].result = res ∧ t.pius[p].staging.req = .none ∧
    ((∀ st, s.pius[p].stream = some st → st.earned = none) → t.pius[p].stream = none) ∧
    (∀ c ops b, s.pius[p].link = .body c ops b → t.pius[p].link = .body c ops (bodyWithout b)) ∧
    ((∀ c ops b, s.pius[p].link ≠ .body c ops b) → t.pius[p].link = s.pius[p].link) ∧
    t.pius[p].wire = s.pius[p].wire ∧ t.pius[p].sel = s.pius[p].sel ∧ t.pius[p].early = s.pius[p].early ∧
    (∀ q : Port, q ≠ p →
      t.pius[q].result = s.pius[q].result ∧ t.pius[q].link = s.pius[q].link ∧ t.enables[q] = s.enables[q]) ∧
    t.committed = s.committed ∧ t.divider = s.divider ∧ t.store = s.store ∧ t.ready = s.ready ∧ t.resetn = s.resetn ∧
    t.arbPos = s.arbPos ∧ t.clearEng = s.clearEng ∧ t.pending = s.pending

/-! ### Time and expiries -/

/-- TICK and REFCLK_PERIOD (R102, R106, R113): the tick reaches every counter at once; a period that reaches the ratio is
the tick (log entry 15); until BS is READY the divider stays. Where no tick is due TICK changes nothing (R103, log
entry 15). -/
def Obligations.TickCounts : Prop :=
  (∀ c : Settings, c.tickSelect ≤ 3 → c.tickRatio = 32 * 4 ^ c.tickSelect) ∧
  ∀ (s t : State),
    t = { s with
      divider := 0
      leases := s.leases.map (fun l =>
        match l with
        | .none => .none
        | .running c g => if c ≤ 1 then .raised g else .running (c - 1) g
        | .raised g => .raised g)
      claimLease := (match s.claimLease with
        | .none => .none
        | .running c => if c ≤ 1 then .raised else .running (c - 1)
        | .raised => .raised) } →
    (s.ready = true → s.committed.tickRatio ≤ s.divider + 1 →
      exec .tick s = .next t ∧ exec .refclkPeriod s = .next t) ∧
    (s.ready = true → s.divider + 1 < s.committed.tickRatio →
      exec .refclkPeriod s = .next { s with divider := s.divider + 1 } ∧ exec .tick s = .next s) ∧
    (s.ready = false → exec .refclkPeriod s = .next s ∧ exec .tick s = .next s)

/-- CHAIN_LEASE_EXPIRY (R109, R95, R96): EXPIRED to the owner or origin and REVOKED to each holder, from the record as it
stands, then the vacate; an expiry that matches no chain is dropped, its counter left NONE (log entry 14).
CLAIM_LEASE_EXPIRY (R113, R97): the claim ends, the staged copy is discarded, and its holder is sent CLAIM_LAPSED. An
expiry that is not signalled, or that has been withdrawn, is not taken (R105, R113). -/
def Obligations.Expiries : Prop :=
  (∀ (s : State) (n : ChainNo), (∀ g, s.leases[n] ≠ .raised g) → exec (.chainLeaseExpiry n) s = .next s) ∧
  (∀ s : State, s.claimLease ≠ .raised → exec .claimLeaseExpiry s = .next s) ∧
  (∀ (s : State) (n : ChainNo) (g : Gen), s.leases[n] = .raised g →
    (s.recs[n].gen = g →
      (∀ o l, s.recs[n].life.owner = some o → s.recs[n].life.label = some l →
        exec (.chainLeaseExpiry n) s =
          .next ((s.offer o (.expired ⟨n, g⟩ l.tag s.recs[n].life.phase 0 0)).vacate n)) ∧
      (∀ d l k, s.recs[n].life = .delivering d l k →
        exec (.chainLeaseExpiry n) s =
          .next ((((([0, 1, 2, 3] : List Port).filter (fun q => inSet d.hold q)).foldl
            (fun t q => t.offer q (.revoked ⟨n, g⟩ l.tag d.origin))
            (s.offer d.origin (.expired ⟨n, g⟩ l.tag .delivering (card d.pend) (card d.hold)))).vacate n)))) ∧
    (s.recs[n].gen ≠ g ∨ s.recs[n].life = .vacant →
      exec (.chainLeaseExpiry n) s = .next { s with leases := s.leases.set n .none })) ∧
  ∀ s : State, s.claimLease = .raised →
    (∀ cl, s.claim = some cl →
      exec .claimLeaseExpiry s =
        .next (({ s with claim := none, claimLease := .none } : State).offer cl.holder .claimLapsed)) ∧
    (s.claim = none → exec .claimLeaseExpiry s = .next { s with claimLease := .none })

/-- CLEARING_START and CLEAR_LINE_WRITE (R23): the head block with the committed fill byte; lines in ascending order; after
the eighth the block joins the Free List's tail and the next clearing begins within the event (log entry 16). Where none can start, or
no line is asked for, nothing happens (log entry 3). -/
def Obligations.ClearingProceeds : Prop :=
  (∀ s : State, s.clearEng ≠ none ∨ s.clearQ = [] → exec .clearingStart s = .next s) ∧
  (∀ s : State, s.clearEng = none → exec .clearLineWrite s = .next s) ∧
  (∀ (s : State) (b : Nat) (rest : List Nat), s.clearEng = none → s.clearQ = b :: rest →
    exec .clearingStart s = .next
      { s with clearQ := rest, clearEng := some { block := b, fill := s.committed.fillByte, line := 0 } }) ∧
  (∀ (s : State) (c : Clearing), s.clearEng = some c → s.nextGrant = some .clearEngine → StoreInv s →
    ∃ m : Memory,
      (c.line < 7 →
        exec .clearLineWrite s = .next
          { s with store := m, arbPos := .clearEngine, clearEng := some { c with line := c.line + 1 } }) ∧
      (7 ≤ c.line →
        exec .clearLineWrite s = .next
          { s.freeRises (s.free ++ [c.block]) with
            store := m
            arbPos := .clearEngine
            clearQ := s.clearQ.tail
            clearEng := s.clearQ.head?.map (fun b => { block := b, fill := s.committed.fillByte, line := 0 }) }) ∧
      ∀ a : Nat, Memory.read m a =
        if 128 * c.block + 16 * c.line ≤ a ∧ a < 128 * c.block + 16 * c.line + 16 then c.fill
        else Memory.read s.store a)

/-! ### Invariants -/

/-- Every step keeps the canonical form of the store's list. -/
def Obligations.StoreStaysCanonical : Prop :=
  ∀ s t : State, step s = .next t → StoreInv s → StoreInv t

/-- R20, R3: every step keeps every block in exactly one place, and every record's block list at the length it needs;
with them the streams on their records and the links in agreement with them (`StreamsInv`, `LinksInv`), so that a link in
OPERAND state always needs a byte (`OperandsInv`, R155). -/
def Obligations.BlocksConserved : Prop :=
  ∀ s t : State, step s = .next t → BlocksInv s → BlocksInv t

/-- R116: every step keeps the charge counters equal to what the records hold. -/
def Obligations.ChargesAgree : Prop :=
  ∀ s t : State, step s = .next t → ChargesInv s → ChargesInv t

/-- R4, R71: every step keeps the sets and tallies of each delivery, and the live entries one for each pending port. -/
def Obligations.DeliveriesAgree : Prop :=
  ∀ s t : State, step s = .next t → DeliveriesInv s → DeliveriesInv t

/-- R52, R55: every step keeps the Seal Queue and the engine in agreement with the SEALING records. -/
def Obligations.SealQueueExact : Prop :=
  ∀ s t : State, step s = .next t → SealInv s → SealInv t

/-- R135, R136, R113, R104: every step keeps the settings in range and the lease counters in agreement with the records. -/
def Obligations.TimersAndSettingsKept : Prop :=
  ∀ s t : State, step s = .next t → LeasesInv s → LeasesInv t

/-- R69, R70, R89: every step keeps each inbound queue within its depth with its offsets and laps counting its entries,
and each notice queue within 8. -/
def Obligations.QueueCountersAgree : Prop :=
  ∀ s t : State, step s = .next t → QueuesInv s → QueuesInv t

/-- R151: every step keeps a disabled port stripped of every queue entry, flag, role and claim. -/
def Obligations.DisabledPortStripped : Prop :=
  ∀ s t : State, step s = .next t → DisabledInv s → DisabledInv t

/-- The machine after reset meets every invariant. -/
def Obligations.ResetMeetsInvariants : Prop :=
  StoreInv State.reset ∧ BlocksInv State.reset ∧ ChargesInv State.reset ∧ DeliveriesInv State.reset ∧
  SealInv State.reset ∧ LeasesInv State.reset ∧ QueuesInv State.reset ∧ DisabledInv State.reset
end

