-- ==== Sys2Proof/Laws/State.lean ====
section
/-! SUPPORT. One lemma for each field that an update of State leaves unchanged, each true by rfl, and what the update of
one element of a register file reads back. -/

namespace Sys2Proof.Machine

/-- Reading a register file after one element was replaced. -/
theorem get_set {α : Type} {n : Nat} (v : Vector α n) (p q : Fin n) (x : α) :
    (v.set p x)[q] = if p = q then x else v[q] := by
  simp [Vector.getElem_set, Fin.ext_iff]

/-- Writing back what an element holds changes nothing. -/
theorem set_get {α : Type} {n : Nat} (v : Vector α n) (p : Fin n) : v.set p v[p] = v := by
  simp

/-- Two writes of one element leave the second. -/
theorem set_set {α : Type} {n : Nat} (v : Vector α n) (p : Fin n) (x y : α) : (v.set p x).set p y = v.set p y := by
  simp

/-! ### setPiu -/

@[simp] theorem State.setPiu_resetn (s : State) (p : Port) (u : Piu) : (s.setPiu p u).resetn = s.resetn := rfl
@[simp] theorem State.setPiu_ready (s : State) (p : Port) (u : Piu) : (s.setPiu p u).ready = s.ready := rfl
@[simp] theorem State.setPiu_store (s : State) (p : Port) (u : Piu) : (s.setPiu p u).store = s.store := rfl
@[simp] theorem State.setPiu_free (s : State) (p : Port) (u : Piu) : (s.setPiu p u).free = s.free := rfl
@[simp] theorem State.setPiu_clearQ (s : State) (p : Port) (u : Piu) : (s.setPiu p u).clearQ = s.clearQ := rfl
@[simp] theorem State.setPiu_clearEng (s : State) (p : Port) (u : Piu) : (s.setPiu p u).clearEng = s.clearEng := rfl
@[simp] theorem State.setPiu_watermark (s : State) (p : Port) (u : Piu) : (s.setPiu p u).watermark = s.watermark := rfl
@[simp] theorem State.setPiu_arbPos (s : State) (p : Port) (u : Piu) : (s.setPiu p u).arbPos = s.arbPos := rfl
@[simp] theorem State.setPiu_recs (s : State) (p : Port) (u : Piu) : (s.setPiu p u).recs = s.recs := rfl
@[simp] theorem State.setPiu_chBlocks (s : State) (p : Port) (u : Piu) : (s.setPiu p u).chBlocks = s.chBlocks := rfl
@[simp] theorem State.setPiu_chChains (s : State) (p : Port) (u : Piu) : (s.setPiu p u).chChains = s.chChains := rfl
@[simp] theorem State.setPiu_sealQ (s : State) (p : Port) (u : Piu) : (s.setPiu p u).sealQ = s.sealQ := rfl
@[simp] theorem State.setPiu_sealEng (s : State) (p : Port) (u : Piu) : (s.setPiu p u).sealEng = s.sealEng := rfl
@[simp] theorem State.setPiu_inqs (s : State) (p : Port) (u : Piu) : (s.setPiu p u).inqs = s.inqs := rfl
@[simp] theorem State.setPiu_notqs (s : State) (p : Port) (u : Piu) : (s.setPiu p u).notqs = s.notqs := rfl
@[simp] theorem State.setPiu_divider (s : State) (p : Port) (u : Piu) : (s.setPiu p u).divider = s.divider := rfl
@[simp] theorem State.setPiu_leases (s : State) (p : Port) (u : Piu) : (s.setPiu p u).leases = s.leases := rfl
@[simp] theorem State.setPiu_claimLease (s : State) (p : Port) (u : Piu) : (s.setPiu p u).claimLease = s.claimLease := rfl
@[simp] theorem State.setPiu_edges (s : State) (p : Port) (u : Piu) : (s.setPiu p u).edges = s.edges := rfl
@[simp] theorem State.setPiu_enables (s : State) (p : Port) (u : Piu) : (s.setPiu p u).enables = s.enables := rfl
@[simp] theorem State.setPiu_committed (s : State) (p : Port) (u : Piu) : (s.setPiu p u).committed = s.committed := rfl
@[simp] theorem State.setPiu_claim (s : State) (p : Port) (u : Piu) : (s.setPiu p u).claim = s.claim := rfl
@[simp] theorem State.setPiu_pending (s : State) (p : Port) (u : Piu) : (s.setPiu p u).pending = s.pending := rfl
@[simp] theorem State.setPiu_fresh (s : State) (p : Port) (u : Piu) : (s.setPiu p u).fresh = s.fresh := rfl

/-! ### setRec -/

@[simp] theorem State.setRec_resetn (s : State) (n : ChainNo) (r : ChainRec) : (s.setRec n r).resetn = s.resetn := rfl
@[simp] theorem State.setRec_ready (s : State) (n : ChainNo) (r : ChainRec) : (s.setRec n r).ready = s.ready := rfl
@[simp] theorem State.setRec_store (s : State) (n : ChainNo) (r : ChainRec) : (s.setRec n r).store = s.store := rfl
@[simp] theorem State.setRec_free (s : State) (n : ChainNo) (r : ChainRec) : (s.setRec n r).free = s.free := rfl
@[simp] theorem State.setRec_clearQ (s : State) (n : ChainNo) (r : ChainRec) : (s.setRec n r).clearQ = s.clearQ := rfl
@[simp] theorem State.setRec_clearEng (s : State) (n : ChainNo) (r : ChainRec) : (s.setRec n r).clearEng = s.clearEng := rfl
@[simp] theorem State.setRec_watermark (s : State) (n : ChainNo) (r : ChainRec) : (s.setRec n r).watermark = s.watermark := rfl
@[simp] theorem State.setRec_arbPos (s : State) (n : ChainNo) (r : ChainRec) : (s.setRec n r).arbPos = s.arbPos := rfl
@[simp] theorem State.setRec_chBlocks (s : State) (n : ChainNo) (r : ChainRec) : (s.setRec n r).chBlocks = s.chBlocks := rfl
@[simp] theorem State.setRec_chChains (s : State) (n : ChainNo) (r : ChainRec) : (s.setRec n r).chChains = s.chChains := rfl
@[simp] theorem State.setRec_sealQ (s : State) (n : ChainNo) (r : ChainRec) : (s.setRec n r).sealQ = s.sealQ := rfl
@[simp] theorem State.setRec_sealEng (s : State) (n : ChainNo) (r : ChainRec) : (s.setRec n r).sealEng = s.sealEng := rfl
@[simp] theorem State.setRec_inqs (s : State) (n : ChainNo) (r : ChainRec) : (s.setRec n r).inqs = s.inqs := rfl
@[simp] theorem State.setRec_notqs (s : State) (n : ChainNo) (r : ChainRec) : (s.setRec n r).notqs = s.notqs := rfl
@[simp] theorem State.setRec_divider (s : State) (n : ChainNo) (r : ChainRec) : (s.setRec n r).divider = s.divider := rfl
@[simp] theorem State.setRec_leases (s : State) (n : ChainNo) (r : ChainRec) : (s.setRec n r).leases = s.leases := rfl
@[simp] theorem State.setRec_claimLease (s : State) (n : ChainNo) (r : ChainRec) : (s.setRec n r).claimLease = s.claimLease := rfl
@[simp] theorem State.setRec_edges (s : State) (n : ChainNo) (r : ChainRec) : (s.setRec n r).edges = s.edges := rfl
@[simp] theorem State.setRec_enables (s : State) (n : ChainNo) (r : ChainRec) : (s.setRec n r).enables = s.enables := rfl
@[simp] theorem State.setRec_committed (s : State) (n : ChainNo) (r : ChainRec) : (s.setRec n r).committed = s.committed := rfl
@[simp] theorem State.setRec_claim (s : State) (n : ChainNo) (r : ChainRec) : (s.setRec n r).claim = s.claim := rfl
@[simp] theorem State.setRec_pius (s : State) (n : ChainNo) (r : ChainRec) : (s.setRec n r).pius = s.pius := rfl
@[simp] theorem State.setRec_pending (s : State) (n : ChainNo) (r : ChainRec) : (s.setRec n r).pending = s.pending := rfl
@[simp] theorem State.setRec_fresh (s : State) (n : ChainNo) (r : ChainRec) : (s.setRec n r).fresh = s.fresh := rfl

/-! ### setLease -/

@[simp] theorem State.setLease_resetn (s : State) (n : ChainNo) (c : Lease) : (s.setLease n c).resetn = s.resetn := rfl
@[simp] theorem State.setLease_ready (s : State) (n : ChainNo) (c : Lease) : (s.setLease n c).ready = s.ready := rfl
@[simp] theorem State.setLease_store (s : State) (n : ChainNo) (c : Lease) : (s.setLease n c).store = s.store := rfl
@[simp] theorem State.setLease_free (s : State) (n : ChainNo) (c : Lease) : (s.setLease n c).free = s.free := rfl
@[simp] theorem State.setLease_clearQ (s : State) (n : ChainNo) (c : Lease) : (s.setLease n c).clearQ = s.clearQ := rfl
@[simp] theorem State.setLease_clearEng (s : State) (n : ChainNo) (c : Lease) : (s.setLease n c).clearEng = s.clearEng := rfl
@[simp] theorem State.setLease_watermark (s : State) (n : ChainNo) (c : Lease) : (s.setLease n c).watermark = s.watermark := rfl
@[simp] theorem State.setLease_arbPos (s : State) (n : ChainNo) (c : Lease) : (s.setLease n c).arbPos = s.arbPos := rfl
@[simp] theorem State.setLease_recs (s : State) (n : ChainNo) (c : Lease) : (s.setLease n c).recs = s.recs := rfl
@[simp] theorem State.setLease_chBlocks (s : State) (n : ChainNo) (c : Lease) : (s.setLease n c).chBlocks = s.chBlocks := rfl
@[simp] theorem State.setLease_chChains (s : State) (n : ChainNo) (c : Lease) : (s.setLease n c).chChains = s.chChains := rfl
@[simp] theorem State.setLease_sealQ (s : State) (n : ChainNo) (c : Lease) : (s.setLease n c).sealQ = s.sealQ := rfl
@[simp] theorem State.setLease_sealEng (s : State) (n : ChainNo) (c : Lease) : (s.setLease n c).sealEng = s.sealEng := rfl
@[simp] theorem State.setLease_inqs (s : State) (n : ChainNo) (c : Lease) : (s.setLease n c).inqs = s.inqs := rfl
@[simp] theorem State.setLease_notqs (s : State) (n : ChainNo) (c : Lease) : (s.setLease n c).notqs = s.notqs := rfl
@[simp] theorem State.setLease_divider (s : State) (n : ChainNo) (c : Lease) : (s.setLease n c).divider = s.divider := rfl
@[simp] theorem State.setLease_claimLease (s : State) (n : ChainNo) (c : Lease) : (s.setLease n c).claimLease = s.claimLease := rfl
@[simp] theorem State.setLease_edges (s : State) (n : ChainNo) (c : Lease) : (s.setLease n c).edges = s.edges := rfl
@[simp] theorem State.setLease_enables (s : State) (n : ChainNo) (c : Lease) : (s.setLease n c).enables = s.enables := rfl
@[simp] theorem State.setLease_committed (s : State) (n : ChainNo) (c : Lease) : (s.setLease n c).committed = s.committed := rfl
@[simp] theorem State.setLease_claim (s : State) (n : ChainNo) (c : Lease) : (s.setLease n c).claim = s.claim := rfl
@[simp] theorem State.setLease_pius (s : State) (n : ChainNo) (c : Lease) : (s.setLease n c).pius = s.pius := rfl
@[simp] theorem State.setLease_pending (s : State) (n : ChainNo) (c : Lease) : (s.setLease n c).pending = s.pending := rfl
@[simp] theorem State.setLease_fresh (s : State) (n : ChainNo) (c : Lease) : (s.setLease n c).fresh = s.fresh := rfl

/-! ### setInq -/

@[simp] theorem State.setInq_resetn (s : State) (p : Port) (q : InQueue) : (s.setInq p q).resetn = s.resetn := rfl
@[simp] theorem State.setInq_ready (s : State) (p : Port) (q : InQueue) : (s.setInq p q).ready = s.ready := rfl
@[simp] theorem State.setInq_store (s : State) (p : Port) (q : InQueue) : (s.setInq p q).store = s.store := rfl
@[simp] theorem State.setInq_free (s : State) (p : Port) (q : InQueue) : (s.setInq p q).free = s.free := rfl
@[simp] theorem State.setInq_clearQ (s : State) (p : Port) (q : InQueue) : (s.setInq p q).clearQ = s.clearQ := rfl
@[simp] theorem State.setInq_clearEng (s : State) (p : Port) (q : InQueue) : (s.setInq p q).clearEng = s.clearEng := rfl
@[simp] theorem State.setInq_watermark (s : State) (p : Port) (q : InQueue) : (s.setInq p q).watermark = s.watermark := rfl
@[simp] theorem State.setInq_arbPos (s : State) (p : Port) (q : InQueue) : (s.setInq p q).arbPos = s.arbPos := rfl
@[simp] theorem State.setInq_recs (s : State) (p : Port) (q : InQueue) : (s.setInq p q).recs = s.recs := rfl
@[simp] theorem State.setInq_chBlocks (s : State) (p : Port) (q : InQueue) : (s.setInq p q).chBlocks = s.chBlocks := rfl
@[simp] theorem State.setInq_chChains (s : State) (p : Port) (q : InQueue) : (s.setInq p q).chChains = s.chChains := rfl
@[simp] theorem State.setInq_sealQ (s : State) (p : Port) (q : InQueue) : (s.setInq p q).sealQ = s.sealQ := rfl
@[simp] theorem State.setInq_sealEng (s : State) (p : Port) (q : InQueue) : (s.setInq p q).sealEng = s.sealEng := rfl
@[simp] theorem State.setInq_notqs (s : State) (p : Port) (q : InQueue) : (s.setInq p q).notqs = s.notqs := rfl
@[simp] theorem State.setInq_divider (s : State) (p : Port) (q : InQueue) : (s.setInq p q).divider = s.divider := rfl
@[simp] theorem State.setInq_leases (s : State) (p : Port) (q : InQueue) : (s.setInq p q).leases = s.leases := rfl
@[simp] theorem State.setInq_claimLease (s : State) (p : Port) (q : InQueue) : (s.setInq p q).claimLease = s.claimLease := rfl
@[simp] theorem State.setInq_edges (s : State) (p : Port) (q : InQueue) : (s.setInq p q).edges = s.edges := rfl
@[simp] theorem State.setInq_enables (s : State) (p : Port) (q : InQueue) : (s.setInq p q).enables = s.enables := rfl
@[simp] theorem State.setInq_committed (s : State) (p : Port) (q : InQueue) : (s.setInq p q).committed = s.committed := rfl
@[simp] theorem State.setInq_claim (s : State) (p : Port) (q : InQueue) : (s.setInq p q).claim = s.claim := rfl
@[simp] theorem State.setInq_pius (s : State) (p : Port) (q : InQueue) : (s.setInq p q).pius = s.pius := rfl
@[simp] theorem State.setInq_pending (s : State) (p : Port) (q : InQueue) : (s.setInq p q).pending = s.pending := rfl
@[simp] theorem State.setInq_fresh (s : State) (p : Port) (q : InQueue) : (s.setInq p q).fresh = s.fresh := rfl

/-! ### setNotq -/

@[simp] theorem State.setNotq_resetn (s : State) (p : Port) (q : List Notice) : (s.setNotq p q).resetn = s.resetn := rfl
@[simp] theorem State.setNotq_ready (s : State) (p : Port) (q : List Notice) : (s.setNotq p q).ready = s.ready := rfl
@[simp] theorem State.setNotq_store (s : State) (p : Port) (q : List Notice) : (s.setNotq p q).store = s.store := rfl
@[simp] theorem State.setNotq_free (s : State) (p : Port) (q : List Notice) : (s.setNotq p q).free = s.free := rfl
@[simp] theorem State.setNotq_clearQ (s : State) (p : Port) (q : List Notice) : (s.setNotq p q).clearQ = s.clearQ := rfl
@[simp] theorem State.setNotq_clearEng (s : State) (p : Port) (q : List Notice) : (s.setNotq p q).clearEng = s.clearEng := rfl
@[simp] theorem State.setNotq_watermark (s : State) (p : Port) (q : List Notice) : (s.setNotq p q).watermark = s.watermark := rfl
@[simp] theorem State.setNotq_arbPos (s : State) (p : Port) (q : List Notice) : (s.setNotq p q).arbPos = s.arbPos := rfl
@[simp] theorem State.setNotq_recs (s : State) (p : Port) (q : List Notice) : (s.setNotq p q).recs = s.recs := rfl
@[simp] theorem State.setNotq_chBlocks (s : State) (p : Port) (q : List Notice) : (s.setNotq p q).chBlocks = s.chBlocks := rfl
@[simp] theorem State.setNotq_chChains (s : State) (p : Port) (q : List Notice) : (s.setNotq p q).chChains = s.chChains := rfl
@[simp] theorem State.setNotq_sealQ (s : State) (p : Port) (q : List Notice) : (s.setNotq p q).sealQ = s.sealQ := rfl
@[simp] theorem State.setNotq_sealEng (s : State) (p : Port) (q : List Notice) : (s.setNotq p q).sealEng = s.sealEng := rfl
@[simp] theorem State.setNotq_inqs (s : State) (p : Port) (q : List Notice) : (s.setNotq p q).inqs = s.inqs := rfl
@[simp] theorem State.setNotq_divider (s : State) (p : Port) (q : List Notice) : (s.setNotq p q).divider = s.divider := rfl
@[simp] theorem State.setNotq_leases (s : State) (p : Port) (q : List Notice) : (s.setNotq p q).leases = s.leases := rfl
@[simp] theorem State.setNotq_claimLease (s : State) (p : Port) (q : List Notice) : (s.setNotq p q).claimLease = s.claimLease := rfl
@[simp] theorem State.setNotq_edges (s : State) (p : Port) (q : List Notice) : (s.setNotq p q).edges = s.edges := rfl
@[simp] theorem State.setNotq_enables (s : State) (p : Port) (q : List Notice) : (s.setNotq p q).enables = s.enables := rfl
@[simp] theorem State.setNotq_committed (s : State) (p : Port) (q : List Notice) : (s.setNotq p q).committed = s.committed := rfl
@[simp] theorem State.setNotq_claim (s : State) (p : Port) (q : List Notice) : (s.setNotq p q).claim = s.claim := rfl
@[simp] theorem State.setNotq_pius (s : State) (p : Port) (q : List Notice) : (s.setNotq p q).pius = s.pius := rfl
@[simp] theorem State.setNotq_pending (s : State) (p : Port) (q : List Notice) : (s.setNotq p q).pending = s.pending := rfl
@[simp] theorem State.setNotq_fresh (s : State) (p : Port) (q : List Notice) : (s.setNotq p q).fresh = s.fresh := rfl

/-! ### setLink -/

@[simp] theorem State.setLink_resetn (s : State) (p : Port) (l : Link) : (s.setLink p l).resetn = s.resetn := rfl
@[simp] theorem State.setLink_ready (s : State) (p : Port) (l : Link) : (s.setLink p l).ready = s.ready := rfl
@[simp] theorem State.setLink_store (s : State) (p : Port) (l : Link) : (s.setLink p l).store = s.store := rfl
@[simp] theorem State.setLink_free (s : State) (p : Port) (l : Link) : (s.setLink p l).free = s.free := rfl
@[simp] theorem State.setLink_clearQ (s : State) (p : Port) (l : Link) : (s.setLink p l).clearQ = s.clearQ := rfl
@[simp] theorem State.setLink_clearEng (s : State) (p : Port) (l : Link) : (s.setLink p l).clearEng = s.clearEng := rfl
@[simp] theorem State.setLink_watermark (s : State) (p : Port) (l : Link) : (s.setLink p l).watermark = s.watermark := rfl
@[simp] theorem State.setLink_arbPos (s : State) (p : Port) (l : Link) : (s.setLink p l).arbPos = s.arbPos := rfl
@[simp] theorem State.setLink_recs (s : State) (p : Port) (l : Link) : (s.setLink p l).recs = s.recs := rfl
@[simp] theorem State.setLink_chBlocks (s : State) (p : Port) (l : Link) : (s.setLink p l).chBlocks = s.chBlocks := rfl
@[simp] theorem State.setLink_chChains (s : State) (p : Port) (l : Link) : (s.setLink p l).chChains = s.chChains := rfl
@[simp] theorem State.setLink_sealQ (s : State) (p : Port) (l : Link) : (s.setLink p l).sealQ = s.sealQ := rfl
@[simp] theorem State.setLink_sealEng (s : State) (p : Port) (l : Link) : (s.setLink p l).sealEng = s.sealEng := rfl
@[simp] theorem State.setLink_inqs (s : State) (p : Port) (l : Link) : (s.setLink p l).inqs = s.inqs := rfl
@[simp] theorem State.setLink_notqs (s : State) (p : Port) (l : Link) : (s.setLink p l).notqs = s.notqs := rfl
@[simp] theorem State.setLink_divider (s : State) (p : Port) (l : Link) : (s.setLink p l).divider = s.divider := rfl
@[simp] theorem State.setLink_leases (s : State) (p : Port) (l : Link) : (s.setLink p l).leases = s.leases := rfl
@[simp] theorem State.setLink_claimLease (s : State) (p : Port) (l : Link) : (s.setLink p l).claimLease = s.claimLease := rfl
@[simp] theorem State.setLink_edges (s : State) (p : Port) (l : Link) : (s.setLink p l).edges = s.edges := rfl
@[simp] theorem State.setLink_enables (s : State) (p : Port) (l : Link) : (s.setLink p l).enables = s.enables := rfl
@[simp] theorem State.setLink_committed (s : State) (p : Port) (l : Link) : (s.setLink p l).committed = s.committed := rfl
@[simp] theorem State.setLink_claim (s : State) (p : Port) (l : Link) : (s.setLink p l).claim = s.claim := rfl
@[simp] theorem State.setLink_pending (s : State) (p : Port) (l : Link) : (s.setLink p l).pending = s.pending := rfl
@[simp] theorem State.setLink_fresh (s : State) (p : Port) (l : Link) : (s.setLink p l).fresh = s.fresh := rfl

/-! ### setWire -/

@[simp] theorem State.setWire_resetn (s : State) (p : Port) (w : Wire) : (s.setWire p w).resetn = s.resetn := rfl
@[simp] theorem State.setWire_ready (s : State) (p : Port) (w : Wire) : (s.setWire p w).ready = s.ready := rfl
@[simp] theorem State.setWire_store (s : State) (p : Port) (w : Wire) : (s.setWire p w).store = s.store := rfl
@[simp] theorem State.setWire_free (s : State) (p : Port) (w : Wire) : (s.setWire p w).free = s.free := rfl
@[simp] theorem State.setWire_clearQ (s : State) (p : Port) (w : Wire) : (s.setWire p w).clearQ = s.clearQ := rfl
@[simp] theorem State.setWire_clearEng (s : State) (p : Port) (w : Wire) : (s.setWire p w).clearEng = s.clearEng := rfl
@[simp] theorem State.setWire_watermark (s : State) (p : Port) (w : Wire) : (s.setWire p w).watermark = s.watermark := rfl
@[simp] theorem State.setWire_arbPos (s : State) (p : Port) (w : Wire) : (s.setWire p w).arbPos = s.arbPos := rfl
@[simp] theorem State.setWire_recs (s : State) (p : Port) (w : Wire) : (s.setWire p w).recs = s.recs := rfl
@[simp] theorem State.setWire_chBlocks (s : State) (p : Port) (w : Wire) : (s.setWire p w).chBlocks = s.chBlocks := rfl
@[simp] theorem State.setWire_chChains (s : State) (p : Port) (w : Wire) : (s.setWire p w).chChains = s.chChains := rfl
@[simp] theorem State.setWire_sealQ (s : State) (p : Port) (w : Wire) : (s.setWire p w).sealQ = s.sealQ := rfl
@[simp] theorem State.setWire_sealEng (s : State) (p : Port) (w : Wire) : (s.setWire p w).sealEng = s.sealEng := rfl
@[simp] theorem State.setWire_inqs (s : State) (p : Port) (w : Wire) : (s.setWire p w).inqs = s.inqs := rfl
@[simp] theorem State.setWire_notqs (s : State) (p : Port) (w : Wire) : (s.setWire p w).notqs = s.notqs := rfl
@[simp] theorem State.setWire_divider (s : State) (p : Port) (w : Wire) : (s.setWire p w).divider = s.divider := rfl
@[simp] theorem State.setWire_leases (s : State) (p : Port) (w : Wire) : (s.setWire p w).leases = s.leases := rfl
@[simp] theorem State.setWire_claimLease (s : State) (p : Port) (w : Wire) : (s.setWire p w).claimLease = s.claimLease := rfl
@[simp] theorem State.setWire_edges (s : State) (p : Port) (w : Wire) : (s.setWire p w).edges = s.edges := rfl
@[simp] theorem State.setWire_enables (s : State) (p : Port) (w : Wire) : (s.setWire p w).enables = s.enables := rfl
@[simp] theorem State.setWire_committed (s : State) (p : Port) (w : Wire) : (s.setWire p w).committed = s.committed := rfl
@[simp] theorem State.setWire_claim (s : State) (p : Port) (w : Wire) : (s.setWire p w).claim = s.claim := rfl
@[simp] theorem State.setWire_pending (s : State) (p : Port) (w : Wire) : (s.setWire p w).pending = s.pending := rfl
@[simp] theorem State.setWire_fresh (s : State) (p : Port) (w : Wire) : (s.setWire p w).fresh = s.fresh := rfl

/-! ### byteEnd -/

@[simp] theorem State.byteEnd_resetn (s : State) (p : Port) : (s.byteEnd p).resetn = s.resetn := rfl
@[simp] theorem State.byteEnd_ready (s : State) (p : Port) : (s.byteEnd p).ready = s.ready := rfl
@[simp] theorem State.byteEnd_store (s : State) (p : Port) : (s.byteEnd p).store = s.store := rfl
@[simp] theorem State.byteEnd_free (s : State) (p : Port) : (s.byteEnd p).free = s.free := rfl
@[simp] theorem State.byteEnd_clearQ (s : State) (p : Port) : (s.byteEnd p).clearQ = s.clearQ := rfl
@[simp] theorem State.byteEnd_clearEng (s : State) (p : Port) : (s.byteEnd p).clearEng = s.clearEng := rfl
@[simp] theorem State.byteEnd_watermark (s : State) (p : Port) : (s.byteEnd p).watermark = s.watermark := rfl
@[simp] theorem State.byteEnd_arbPos (s : State) (p : Port) : (s.byteEnd p).arbPos = s.arbPos := rfl
@[simp] theorem State.byteEnd_recs (s : State) (p : Port) : (s.byteEnd p).recs = s.recs := rfl
@[simp] theorem State.byteEnd_chBlocks (s : State) (p : Port) : (s.byteEnd p).chBlocks = s.chBlocks := rfl
@[simp] theorem State.byteEnd_chChains (s : State) (p : Port) : (s.byteEnd p).chChains = s.chChains := rfl
@[simp] theorem State.byteEnd_sealQ (s : State) (p : Port) : (s.byteEnd p).sealQ = s.sealQ := rfl
@[simp] theorem State.byteEnd_sealEng (s : State) (p : Port) : (s.byteEnd p).sealEng = s.sealEng := rfl
@[simp] theorem State.byteEnd_inqs (s : State) (p : Port) : (s.byteEnd p).inqs = s.inqs := rfl
@[simp] theorem State.byteEnd_notqs (s : State) (p : Port) : (s.byteEnd p).notqs = s.notqs := rfl
@[simp] theorem State.byteEnd_divider (s : State) (p : Port) : (s.byteEnd p).divider = s.divider := rfl
@[simp] theorem State.byteEnd_leases (s : State) (p : Port) : (s.byteEnd p).leases = s.leases := rfl
@[simp] theorem State.byteEnd_claimLease (s : State) (p : Port) : (s.byteEnd p).claimLease = s.claimLease := rfl
@[simp] theorem State.byteEnd_edges (s : State) (p : Port) : (s.byteEnd p).edges = s.edges := rfl
@[simp] theorem State.byteEnd_enables (s : State) (p : Port) : (s.byteEnd p).enables = s.enables := rfl
@[simp] theorem State.byteEnd_committed (s : State) (p : Port) : (s.byteEnd p).committed = s.committed := rfl
@[simp] theorem State.byteEnd_claim (s : State) (p : Port) : (s.byteEnd p).claim = s.claim := rfl
@[simp] theorem State.byteEnd_pending (s : State) (p : Port) : (s.byteEnd p).pending = s.pending := rfl
@[simp] theorem State.byteEnd_fresh (s : State) (p : Port) : (s.byteEnd p).fresh = s.fresh := rfl

/-! ### deselect -/

@[simp] theorem State.deselect_resetn (s : State) (p : Port) : (s.deselect p).resetn = s.resetn := rfl
@[simp] theorem State.deselect_ready (s : State) (p : Port) : (s.deselect p).ready = s.ready := rfl
@[simp] theorem State.deselect_store (s : State) (p : Port) : (s.deselect p).store = s.store := rfl
@[simp] theorem State.deselect_free (s : State) (p : Port) : (s.deselect p).free = s.free := rfl
@[simp] theorem State.deselect_clearQ (s : State) (p : Port) : (s.deselect p).clearQ = s.clearQ := rfl
@[simp] theorem State.deselect_clearEng (s : State) (p : Port) : (s.deselect p).clearEng = s.clearEng := rfl
@[simp] theorem State.deselect_watermark (s : State) (p : Port) : (s.deselect p).watermark = s.watermark := rfl
@[simp] theorem State.deselect_arbPos (s : State) (p : Port) : (s.deselect p).arbPos = s.arbPos := rfl
@[simp] theorem State.deselect_recs (s : State) (p : Port) : (s.deselect p).recs = s.recs := rfl
@[simp] theorem State.deselect_chBlocks (s : State) (p : Port) : (s.deselect p).chBlocks = s.chBlocks := rfl
@[simp] theorem State.deselect_chChains (s : State) (p : Port) : (s.deselect p).chChains = s.chChains := rfl
@[simp] theorem State.deselect_sealQ (s : State) (p : Port) : (s.deselect p).sealQ = s.sealQ := rfl
@[simp] theorem State.deselect_sealEng (s : State) (p : Port) : (s.deselect p).sealEng = s.sealEng := rfl
@[simp] theorem State.deselect_inqs (s : State) (p : Port) : (s.deselect p).inqs = s.inqs := rfl
@[simp] theorem State.deselect_notqs (s : State) (p : Port) : (s.deselect p).notqs = s.notqs := rfl
@[simp] theorem State.deselect_divider (s : State) (p : Port) : (s.deselect p).divider = s.divider := rfl
@[simp] theorem State.deselect_leases (s : State) (p : Port) : (s.deselect p).leases = s.leases := rfl
@[simp] theorem State.deselect_claimLease (s : State) (p : Port) : (s.deselect p).claimLease = s.claimLease := rfl
@[simp] theorem State.deselect_edges (s : State) (p : Port) : (s.deselect p).edges = s.edges := rfl
@[simp] theorem State.deselect_enables (s : State) (p : Port) : (s.deselect p).enables = s.enables := rfl
@[simp] theorem State.deselect_committed (s : State) (p : Port) : (s.deselect p).committed = s.committed := rfl
@[simp] theorem State.deselect_claim (s : State) (p : Port) : (s.deselect p).claim = s.claim := rfl
@[simp] theorem State.deselect_pending (s : State) (p : Port) : (s.deselect p).pending = s.pending := rfl
@[simp] theorem State.deselect_fresh (s : State) (p : Port) : (s.deselect p).fresh = s.fresh := rfl

/-! ### record -/

@[simp] theorem State.record_resetn (s : State) (p : Port) (c : Byte) (e : Ending) : (s.record p c e).resetn = s.resetn := rfl
@[simp] theorem State.record_ready (s : State) (p : Port) (c : Byte) (e : Ending) : (s.record p c e).ready = s.ready := rfl
@[simp] theorem State.record_store (s : State) (p : Port) (c : Byte) (e : Ending) : (s.record p c e).store = s.store := rfl
@[simp] theorem State.record_free (s : State) (p : Port) (c : Byte) (e : Ending) : (s.record p c e).free = s.free := rfl
@[simp] theorem State.record_clearQ (s : State) (p : Port) (c : Byte) (e : Ending) : (s.record p c e).clearQ = s.clearQ := rfl
@[simp] theorem State.record_clearEng (s : State) (p : Port) (c : Byte) (e : Ending) : (s.record p c e).clearEng = s.clearEng := rfl
@[simp] theorem State.record_watermark (s : State) (p : Port) (c : Byte) (e : Ending) : (s.record p c e).watermark = s.watermark := rfl
@[simp] theorem State.record_arbPos (s : State) (p : Port) (c : Byte) (e : Ending) : (s.record p c e).arbPos = s.arbPos := rfl
@[simp] theorem State.record_recs (s : State) (p : Port) (c : Byte) (e : Ending) : (s.record p c e).recs = s.recs := rfl
@[simp] theorem State.record_chBlocks (s : State) (p : Port) (c : Byte) (e : Ending) : (s.record p c e).chBlocks = s.chBlocks := rfl
@[simp] theorem State.record_chChains (s : State) (p : Port) (c : Byte) (e : Ending) : (s.record p c e).chChains = s.chChains := rfl
@[simp] theorem State.record_sealQ (s : State) (p : Port) (c : Byte) (e : Ending) : (s.record p c e).sealQ = s.sealQ := rfl
@[simp] theorem State.record_sealEng (s : State) (p : Port) (c : Byte) (e : Ending) : (s.record p c e).sealEng = s.sealEng := rfl
@[simp] theorem State.record_inqs (s : State) (p : Port) (c : Byte) (e : Ending) : (s.record p c e).inqs = s.inqs := rfl
@[simp] theorem State.record_notqs (s : State) (p : Port) (c : Byte) (e : Ending) : (s.record p c e).notqs = s.notqs := rfl
@[simp] theorem State.record_divider (s : State) (p : Port) (c : Byte) (e : Ending) : (s.record p c e).divider = s.divider := rfl
@[simp] theorem State.record_leases (s : State) (p : Port) (c : Byte) (e : Ending) : (s.record p c e).leases = s.leases := rfl
@[simp] theorem State.record_claimLease (s : State) (p : Port) (c : Byte) (e : Ending) : (s.record p c e).claimLease = s.claimLease := rfl
@[simp] theorem State.record_edges (s : State) (p : Port) (c : Byte) (e : Ending) : (s.record p c e).edges = s.edges := rfl
@[simp] theorem State.record_enables (s : State) (p : Port) (c : Byte) (e : Ending) : (s.record p c e).enables = s.enables := rfl
@[simp] theorem State.record_committed (s : State) (p : Port) (c : Byte) (e : Ending) : (s.record p c e).committed = s.committed := rfl
@[simp] theorem State.record_claim (s : State) (p : Port) (c : Byte) (e : Ending) : (s.record p c e).claim = s.claim := rfl
@[simp] theorem State.record_pending (s : State) (p : Port) (c : Byte) (e : Ending) : (s.record p c e).pending = s.pending := rfl
@[simp] theorem State.record_fresh (s : State) (p : Port) (c : Byte) (e : Ending) : (s.record p c e).fresh = s.fresh := rfl

/-! ### answers -/

@[simp] theorem State.answers_resetn (s : State) (p : Port) (c : Byte) (e : Ending) : (s.answers p c e).resetn = s.resetn := rfl
@[simp] theorem State.answers_ready (s : State) (p : Port) (c : Byte) (e : Ending) : (s.answers p c e).ready = s.ready := rfl
@[simp] theorem State.answers_store (s : State) (p : Port) (c : Byte) (e : Ending) : (s.answers p c e).store = s.store := rfl
@[simp] theorem State.answers_free (s : State) (p : Port) (c : Byte) (e : Ending) : (s.answers p c e).free = s.free := rfl
@[simp] theorem State.answers_clearQ (s : State) (p : Port) (c : Byte) (e : Ending) : (s.answers p c e).clearQ = s.clearQ := rfl
@[simp] theorem State.answers_clearEng (s : State) (p : Port) (c : Byte) (e : Ending) : (s.answers p c e).clearEng = s.clearEng := rfl
@[simp] theorem State.answers_watermark (s : State) (p : Port) (c : Byte) (e : Ending) : (s.answers p c e).watermark = s.watermark := rfl
@[simp] theorem State.answers_arbPos (s : State) (p : Port) (c : Byte) (e : Ending) : (s.answers p c e).arbPos = s.arbPos := rfl
@[simp] theorem State.answers_recs (s : State) (p : Port) (c : Byte) (e : Ending) : (s.answers p c e).recs = s.recs := rfl
@[simp] theorem State.answers_chBlocks (s : State) (p : Port) (c : Byte) (e : Ending) : (s.answers p c e).chBlocks = s.chBlocks := rfl
@[simp] theorem State.answers_chChains (s : State) (p : Port) (c : Byte) (e : Ending) : (s.answers p c e).chChains = s.chChains := rfl
@[simp] theorem State.answers_sealQ (s : State) (p : Port) (c : Byte) (e : Ending) : (s.answers p c e).sealQ = s.sealQ := rfl
@[simp] theorem State.answers_sealEng (s : State) (p : Port) (c : Byte) (e : Ending) : (s.answers p c e).sealEng = s.sealEng := rfl
@[simp] theorem State.answers_inqs (s : State) (p : Port) (c : Byte) (e : Ending) : (s.answers p c e).inqs = s.inqs := rfl
@[simp] theorem State.answers_notqs (s : State) (p : Port) (c : Byte) (e : Ending) : (s.answers p c e).notqs = s.notqs := rfl
@[simp] theorem State.answers_divider (s : State) (p : Port) (c : Byte) (e : Ending) : (s.answers p c e).divider = s.divider := rfl
@[simp] theorem State.answers_leases (s : State) (p : Port) (c : Byte) (e : Ending) : (s.answers p c e).leases = s.leases := rfl
@[simp] theorem State.answers_claimLease (s : State) (p : Port) (c : Byte) (e : Ending) : (s.answers p c e).claimLease = s.claimLease := rfl
@[simp] theorem State.answers_edges (s : State) (p : Port) (c : Byte) (e : Ending) : (s.answers p c e).edges = s.edges := rfl
@[simp] theorem State.answers_enables (s : State) (p : Port) (c : Byte) (e : Ending) : (s.answers p c e).enables = s.enables := rfl
@[simp] theorem State.answers_committed (s : State) (p : Port) (c : Byte) (e : Ending) : (s.answers p c e).committed = s.committed := rfl
@[simp] theorem State.answers_claim (s : State) (p : Port) (c : Byte) (e : Ending) : (s.answers p c e).claim = s.claim := rfl
@[simp] theorem State.answers_pending (s : State) (p : Port) (c : Byte) (e : Ending) : (s.answers p c e).pending = s.pending := rfl
@[simp] theorem State.answers_fresh (s : State) (p : Port) (c : Byte) (e : Ending) : (s.answers p c e).fresh = s.fresh := rfl

/-! ### loadLease -/

@[simp] theorem State.loadLease_resetn (s : State) (n : ChainNo) : (s.loadLease n).resetn = s.resetn := rfl
@[simp] theorem State.loadLease_ready (s : State) (n : ChainNo) : (s.loadLease n).ready = s.ready := rfl
@[simp] theorem State.loadLease_store (s : State) (n : ChainNo) : (s.loadLease n).store = s.store := rfl
@[simp] theorem State.loadLease_free (s : State) (n : ChainNo) : (s.loadLease n).free = s.free := rfl
@[simp] theorem State.loadLease_clearQ (s : State) (n : ChainNo) : (s.loadLease n).clearQ = s.clearQ := rfl
@[simp] theorem State.loadLease_clearEng (s : State) (n : ChainNo) : (s.loadLease n).clearEng = s.clearEng := rfl
@[simp] theorem State.loadLease_watermark (s : State) (n : ChainNo) : (s.loadLease n).watermark = s.watermark := rfl
@[simp] theorem State.loadLease_arbPos (s : State) (n : ChainNo) : (s.loadLease n).arbPos = s.arbPos := rfl
@[simp] theorem State.loadLease_recs (s : State) (n : ChainNo) : (s.loadLease n).recs = s.recs := rfl
@[simp] theorem State.loadLease_chBlocks (s : State) (n : ChainNo) : (s.loadLease n).chBlocks = s.chBlocks := rfl
@[simp] theorem State.loadLease_chChains (s : State) (n : ChainNo) : (s.loadLease n).chChains = s.chChains := rfl
@[simp] theorem State.loadLease_sealQ (s : State) (n : ChainNo) : (s.loadLease n).sealQ = s.sealQ := rfl
@[simp] theorem State.loadLease_sealEng (s : State) (n : ChainNo) : (s.loadLease n).sealEng = s.sealEng := rfl
@[simp] theorem State.loadLease_inqs (s : State) (n : ChainNo) : (s.loadLease n).inqs = s.inqs := rfl
@[simp] theorem State.loadLease_notqs (s : State) (n : ChainNo) : (s.loadLease n).notqs = s.notqs := rfl
@[simp] theorem State.loadLease_divider (s : State) (n : ChainNo) : (s.loadLease n).divider = s.divider := rfl
@[simp] theorem State.loadLease_claimLease (s : State) (n : ChainNo) : (s.loadLease n).claimLease = s.claimLease := rfl
@[simp] theorem State.loadLease_edges (s : State) (n : ChainNo) : (s.loadLease n).edges = s.edges := rfl
@[simp] theorem State.loadLease_enables (s : State) (n : ChainNo) : (s.loadLease n).enables = s.enables := rfl
@[simp] theorem State.loadLease_committed (s : State) (n : ChainNo) : (s.loadLease n).committed = s.committed := rfl
@[simp] theorem State.loadLease_claim (s : State) (n : ChainNo) : (s.loadLease n).claim = s.claim := rfl
@[simp] theorem State.loadLease_pius (s : State) (n : ChainNo) : (s.loadLease n).pius = s.pius := rfl
@[simp] theorem State.loadLease_pending (s : State) (n : ChainNo) : (s.loadLease n).pending = s.pending := rfl
@[simp] theorem State.loadLease_fresh (s : State) (n : ChainNo) : (s.loadLease n).fresh = s.fresh := rfl

/-! ### charge -/

@[simp] theorem State.charge_resetn (s : State) (p : Port) (b c : Nat) : (s.charge p b c).resetn = s.resetn := rfl
@[simp] theorem State.charge_ready (s : State) (p : Port) (b c : Nat) : (s.charge p b c).ready = s.ready := rfl
@[simp] theorem State.charge_store (s : State) (p : Port) (b c : Nat) : (s.charge p b c).store = s.store := rfl
@[simp] theorem State.charge_free (s : State) (p : Port) (b c : Nat) : (s.charge p b c).free = s.free := rfl
@[simp] theorem State.charge_clearQ (s : State) (p : Port) (b c : Nat) : (s.charge p b c).clearQ = s.clearQ := rfl
@[simp] theorem State.charge_clearEng (s : State) (p : Port) (b c : Nat) : (s.charge p b c).clearEng = s.clearEng := rfl
@[simp] theorem State.charge_watermark (s : State) (p : Port) (b c : Nat) : (s.charge p b c).watermark = s.watermark := rfl
@[simp] theorem State.charge_arbPos (s : State) (p : Port) (b c : Nat) : (s.charge p b c).arbPos = s.arbPos := rfl
@[simp] theorem State.charge_recs (s : State) (p : Port) (b c : Nat) : (s.charge p b c).recs = s.recs := rfl
@[simp] theorem State.charge_sealQ (s : State) (p : Port) (b c : Nat) : (s.charge p b c).sealQ = s.sealQ := rfl
@[simp] theorem State.charge_sealEng (s : State) (p : Port) (b c : Nat) : (s.charge p b c).sealEng = s.sealEng := rfl
@[simp] theorem State.charge_inqs (s : State) (p : Port) (b c : Nat) : (s.charge p b c).inqs = s.inqs := rfl
@[simp] theorem State.charge_notqs (s : State) (p : Port) (b c : Nat) : (s.charge p b c).notqs = s.notqs := rfl
@[simp] theorem State.charge_divider (s : State) (p : Port) (b c : Nat) : (s.charge p b c).divider = s.divider := rfl
@[simp] theorem State.charge_leases (s : State) (p : Port) (b c : Nat) : (s.charge p b c).leases = s.leases := rfl
@[simp] theorem State.charge_claimLease (s : State) (p : Port) (b c : Nat) : (s.charge p b c).claimLease = s.claimLease := rfl
@[simp] theorem State.charge_edges (s : State) (p : Port) (b c : Nat) : (s.charge p b c).edges = s.edges := rfl
@[simp] theorem State.charge_enables (s : State) (p : Port) (b c : Nat) : (s.charge p b c).enables = s.enables := rfl
@[simp] theorem State.charge_committed (s : State) (p : Port) (b c : Nat) : (s.charge p b c).committed = s.committed := rfl
@[simp] theorem State.charge_claim (s : State) (p : Port) (b c : Nat) : (s.charge p b c).claim = s.claim := rfl
@[simp] theorem State.charge_pius (s : State) (p : Port) (b c : Nat) : (s.charge p b c).pius = s.pius := rfl
@[simp] theorem State.charge_pending (s : State) (p : Port) (b c : Nat) : (s.charge p b c).pending = s.pending := rfl
@[simp] theorem State.charge_fresh (s : State) (p : Port) (b c : Nat) : (s.charge p b c).fresh = s.fresh := rfl

/-! ### discharge -/

@[simp] theorem State.discharge_resetn (s : State) (p : Port) (b c : Nat) : (s.discharge p b c).resetn = s.resetn := rfl
@[simp] theorem State.discharge_ready (s : State) (p : Port) (b c : Nat) : (s.discharge p b c).ready = s.ready := rfl
@[simp] theorem State.discharge_store (s : State) (p : Port) (b c : Nat) : (s.discharge p b c).store = s.store := rfl
@[simp] theorem State.discharge_free (s : State) (p : Port) (b c : Nat) : (s.discharge p b c).free = s.free := rfl
@[simp] theorem State.discharge_clearQ (s : State) (p : Port) (b c : Nat) : (s.discharge p b c).clearQ = s.clearQ := rfl
@[simp] theorem State.discharge_clearEng (s : State) (p : Port) (b c : Nat) : (s.discharge p b c).clearEng = s.clearEng := rfl
@[simp] theorem State.discharge_watermark (s : State) (p : Port) (b c : Nat) : (s.discharge p b c).watermark = s.watermark := rfl
@[simp] theorem State.discharge_arbPos (s : State) (p : Port) (b c : Nat) : (s.discharge p b c).arbPos = s.arbPos := rfl
@[simp] theorem State.discharge_recs (s : State) (p : Port) (b c : Nat) : (s.discharge p b c).recs = s.recs := rfl
@[simp] theorem State.discharge_sealQ (s : State) (p : Port) (b c : Nat) : (s.discharge p b c).sealQ = s.sealQ := rfl
@[simp] theorem State.discharge_sealEng (s : State) (p : Port) (b c : Nat) : (s.discharge p b c).sealEng = s.sealEng := rfl
@[simp] theorem State.discharge_inqs (s : State) (p : Port) (b c : Nat) : (s.discharge p b c).inqs = s.inqs := rfl
@[simp] theorem State.discharge_notqs (s : State) (p : Port) (b c : Nat) : (s.discharge p b c).notqs = s.notqs := rfl
@[simp] theorem State.discharge_divider (s : State) (p : Port) (b c : Nat) : (s.discharge p b c).divider = s.divider := rfl
@[simp] theorem State.discharge_leases (s : State) (p : Port) (b c : Nat) : (s.discharge p b c).leases = s.leases := rfl
@[simp] theorem State.discharge_claimLease (s : State) (p : Port) (b c : Nat) : (s.discharge p b c).claimLease = s.claimLease := rfl
@[simp] theorem State.discharge_edges (s : State) (p : Port) (b c : Nat) : (s.discharge p b c).edges = s.edges := rfl
@[simp] theorem State.discharge_enables (s : State) (p : Port) (b c : Nat) : (s.discharge p b c).enables = s.enables := rfl
@[simp] theorem State.discharge_committed (s : State) (p : Port) (b c : Nat) : (s.discharge p b c).committed = s.committed := rfl
@[simp] theorem State.discharge_claim (s : State) (p : Port) (b c : Nat) : (s.discharge p b c).claim = s.claim := rfl
@[simp] theorem State.discharge_pius (s : State) (p : Port) (b c : Nat) : (s.discharge p b c).pius = s.pius := rfl
@[simp] theorem State.discharge_pending (s : State) (p : Port) (b c : Nat) : (s.discharge p b c).pending = s.pending := rfl
@[simp] theorem State.discharge_fresh (s : State) (p : Port) (b c : Nat) : (s.discharge p b c).fresh = s.fresh := rfl

/-! ### grow -/

@[simp] theorem State.grow_resetn (s : State) (n : ChainNo) (p : Port) (bs : List Nat) : (s.grow n p bs).resetn = s.resetn := rfl
@[simp] theorem State.grow_ready (s : State) (n : ChainNo) (p : Port) (bs : List Nat) : (s.grow n p bs).ready = s.ready := rfl
@[simp] theorem State.grow_store (s : State) (n : ChainNo) (p : Port) (bs : List Nat) : (s.grow n p bs).store = s.store := rfl
@[simp] theorem State.grow_free (s : State) (n : ChainNo) (p : Port) (bs : List Nat) : (s.grow n p bs).free = s.free := rfl
@[simp] theorem State.grow_clearQ (s : State) (n : ChainNo) (p : Port) (bs : List Nat) : (s.grow n p bs).clearQ = s.clearQ := rfl
@[simp] theorem State.grow_clearEng (s : State) (n : ChainNo) (p : Port) (bs : List Nat) : (s.grow n p bs).clearEng = s.clearEng := rfl
@[simp] theorem State.grow_watermark (s : State) (n : ChainNo) (p : Port) (bs : List Nat) : (s.grow n p bs).watermark = s.watermark := rfl
@[simp] theorem State.grow_arbPos (s : State) (n : ChainNo) (p : Port) (bs : List Nat) : (s.grow n p bs).arbPos = s.arbPos := rfl
@[simp] theorem State.grow_sealQ (s : State) (n : ChainNo) (p : Port) (bs : List Nat) : (s.grow n p bs).sealQ = s.sealQ := rfl
@[simp] theorem State.grow_sealEng (s : State) (n : ChainNo) (p : Port) (bs : List Nat) : (s.grow n p bs).sealEng = s.sealEng := rfl
@[simp] theorem State.grow_inqs (s : State) (n : ChainNo) (p : Port) (bs : List Nat) : (s.grow n p bs).inqs = s.inqs := rfl
@[simp] theorem State.grow_notqs (s : State) (n : ChainNo) (p : Port) (bs : List Nat) : (s.grow n p bs).notqs = s.notqs := rfl
@[simp] theorem State.grow_divider (s : State) (n : ChainNo) (p : Port) (bs : List Nat) : (s.grow n p bs).divider = s.divider := rfl
@[simp] theorem State.grow_leases (s : State) (n : ChainNo) (p : Port) (bs : List Nat) : (s.grow n p bs).leases = s.leases := rfl
@[simp] theorem State.grow_claimLease (s : State) (n : ChainNo) (p : Port) (bs : List Nat) : (s.grow n p bs).claimLease = s.claimLease := rfl
@[simp] theorem State.grow_edges (s : State) (n : ChainNo) (p : Port) (bs : List Nat) : (s.grow n p bs).edges = s.edges := rfl
@[simp] theorem State.grow_enables (s : State) (n : ChainNo) (p : Port) (bs : List Nat) : (s.grow n p bs).enables = s.enables := rfl
@[simp] theorem State.grow_committed (s : State) (n : ChainNo) (p : Port) (bs : List Nat) : (s.grow n p bs).committed = s.committed := rfl
@[simp] theorem State.grow_claim (s : State) (n : ChainNo) (p : Port) (bs : List Nat) : (s.grow n p bs).claim = s.claim := rfl
@[simp] theorem State.grow_pius (s : State) (n : ChainNo) (p : Port) (bs : List Nat) : (s.grow n p bs).pius = s.pius := rfl
@[simp] theorem State.grow_pending (s : State) (n : ChainNo) (p : Port) (bs : List Nat) : (s.grow n p bs).pending = s.pending := rfl
@[simp] theorem State.grow_fresh (s : State) (n : ChainNo) (p : Port) (bs : List Nat) : (s.grow n p bs).fresh = s.fresh := rfl

/-! ### raise -/

@[simp] theorem State.raise_resetn (s : State) (r : Reason) (p : Port) : (s.raise r p).resetn = s.resetn := rfl
@[simp] theorem State.raise_ready (s : State) (r : Reason) (p : Port) : (s.raise r p).ready = s.ready := rfl
@[simp] theorem State.raise_store (s : State) (r : Reason) (p : Port) : (s.raise r p).store = s.store := rfl
@[simp] theorem State.raise_free (s : State) (r : Reason) (p : Port) : (s.raise r p).free = s.free := rfl
@[simp] theorem State.raise_clearQ (s : State) (r : Reason) (p : Port) : (s.raise r p).clearQ = s.clearQ := rfl
@[simp] theorem State.raise_clearEng (s : State) (r : Reason) (p : Port) : (s.raise r p).clearEng = s.clearEng := rfl
@[simp] theorem State.raise_watermark (s : State) (r : Reason) (p : Port) : (s.raise r p).watermark = s.watermark := rfl
@[simp] theorem State.raise_arbPos (s : State) (r : Reason) (p : Port) : (s.raise r p).arbPos = s.arbPos := rfl
@[simp] theorem State.raise_recs (s : State) (r : Reason) (p : Port) : (s.raise r p).recs = s.recs := rfl
@[simp] theorem State.raise_chBlocks (s : State) (r : Reason) (p : Port) : (s.raise r p).chBlocks = s.chBlocks := rfl
@[simp] theorem State.raise_chChains (s : State) (r : Reason) (p : Port) : (s.raise r p).chChains = s.chChains := rfl
@[simp] theorem State.raise_sealQ (s : State) (r : Reason) (p : Port) : (s.raise r p).sealQ = s.sealQ := rfl
@[simp] theorem State.raise_sealEng (s : State) (r : Reason) (p : Port) : (s.raise r p).sealEng = s.sealEng := rfl
@[simp] theorem State.raise_inqs (s : State) (r : Reason) (p : Port) : (s.raise r p).inqs = s.inqs := rfl
@[simp] theorem State.raise_notqs (s : State) (r : Reason) (p : Port) : (s.raise r p).notqs = s.notqs := rfl
@[simp] theorem State.raise_divider (s : State) (r : Reason) (p : Port) : (s.raise r p).divider = s.divider := rfl
@[simp] theorem State.raise_leases (s : State) (r : Reason) (p : Port) : (s.raise r p).leases = s.leases := rfl
@[simp] theorem State.raise_claimLease (s : State) (r : Reason) (p : Port) : (s.raise r p).claimLease = s.claimLease := rfl
@[simp] theorem State.raise_enables (s : State) (r : Reason) (p : Port) : (s.raise r p).enables = s.enables := rfl
@[simp] theorem State.raise_committed (s : State) (r : Reason) (p : Port) : (s.raise r p).committed = s.committed := rfl
@[simp] theorem State.raise_claim (s : State) (r : Reason) (p : Port) : (s.raise r p).claim = s.claim := rfl
@[simp] theorem State.raise_pius (s : State) (r : Reason) (p : Port) : (s.raise r p).pius = s.pius := rfl
@[simp] theorem State.raise_pending (s : State) (r : Reason) (p : Port) : (s.raise r p).pending = s.pending := rfl
@[simp] theorem State.raise_fresh (s : State) (r : Reason) (p : Port) : (s.raise r p).fresh = s.fresh := rfl

/-! ### raiseAll -/

@[simp] theorem State.raiseAll_resetn (s : State) (r : Reason) (x : PortSet) : (s.raiseAll r x).resetn = s.resetn := rfl
@[simp] theorem State.raiseAll_ready (s : State) (r : Reason) (x : PortSet) : (s.raiseAll r x).ready = s.ready := rfl
@[simp] theorem State.raiseAll_store (s : State) (r : Reason) (x : PortSet) : (s.raiseAll r x).store = s.store := rfl
@[simp] theorem State.raiseAll_free (s : State) (r : Reason) (x : PortSet) : (s.raiseAll r x).free = s.free := rfl
@[simp] theorem State.raiseAll_clearQ (s : State) (r : Reason) (x : PortSet) : (s.raiseAll r x).clearQ = s.clearQ := rfl
@[simp] theorem State.raiseAll_clearEng (s : State) (r : Reason) (x : PortSet) : (s.raiseAll r x).clearEng = s.clearEng := rfl
@[simp] theorem State.raiseAll_watermark (s : State) (r : Reason) (x : PortSet) : (s.raiseAll r x).watermark = s.watermark := rfl
@[simp] theorem State.raiseAll_arbPos (s : State) (r : Reason) (x : PortSet) : (s.raiseAll r x).arbPos = s.arbPos := rfl
@[simp] theorem State.raiseAll_recs (s : State) (r : Reason) (x : PortSet) : (s.raiseAll r x).recs = s.recs := rfl
@[simp] theorem State.raiseAll_chBlocks (s : State) (r : Reason) (x : PortSet) : (s.raiseAll r x).chBlocks = s.chBlocks := rfl
@[simp] theorem State.raiseAll_chChains (s : State) (r : Reason) (x : PortSet) : (s.raiseAll r x).chChains = s.chChains := rfl
@[simp] theorem State.raiseAll_sealQ (s : State) (r : Reason) (x : PortSet) : (s.raiseAll r x).sealQ = s.sealQ := rfl
@[simp] theorem State.raiseAll_sealEng (s : State) (r : Reason) (x : PortSet) : (s.raiseAll r x).sealEng = s.sealEng := rfl
@[simp] theorem State.raiseAll_inqs (s : State) (r : Reason) (x : PortSet) : (s.raiseAll r x).inqs = s.inqs := rfl
@[simp] theorem State.raiseAll_notqs (s : State) (r : Reason) (x : PortSet) : (s.raiseAll r x).notqs = s.notqs := rfl
@[simp] theorem State.raiseAll_divider (s : State) (r : Reason) (x : PortSet) : (s.raiseAll r x).divider = s.divider := rfl
@[simp] theorem State.raiseAll_leases (s : State) (r : Reason) (x : PortSet) : (s.raiseAll r x).leases = s.leases := rfl
@[simp] theorem State.raiseAll_claimLease (s : State) (r : Reason) (x : PortSet) : (s.raiseAll r x).claimLease = s.claimLease := rfl
@[simp] theorem State.raiseAll_enables (s : State) (r : Reason) (x : PortSet) : (s.raiseAll r x).enables = s.enables := rfl
@[simp] theorem State.raiseAll_committed (s : State) (r : Reason) (x : PortSet) : (s.raiseAll r x).committed = s.committed := rfl
@[simp] theorem State.raiseAll_claim (s : State) (r : Reason) (x : PortSet) : (s.raiseAll r x).claim = s.claim := rfl
@[simp] theorem State.raiseAll_pius (s : State) (r : Reason) (x : PortSet) : (s.raiseAll r x).pius = s.pius := rfl
@[simp] theorem State.raiseAll_pending (s : State) (r : Reason) (x : PortSet) : (s.raiseAll r x).pending = s.pending := rfl
@[simp] theorem State.raiseAll_fresh (s : State) (r : Reason) (x : PortSet) : (s.raiseAll r x).fresh = s.fresh := rfl

/-! ### freeFalls -/

@[simp] theorem State.freeFalls_resetn (s : State) (l : List Nat) : (s.freeFalls l).resetn = s.resetn := rfl
@[simp] theorem State.freeFalls_ready (s : State) (l : List Nat) : (s.freeFalls l).ready = s.ready := rfl
@[simp] theorem State.freeFalls_store (s : State) (l : List Nat) : (s.freeFalls l).store = s.store := rfl
@[simp] theorem State.freeFalls_clearQ (s : State) (l : List Nat) : (s.freeFalls l).clearQ = s.clearQ := rfl
@[simp] theorem State.freeFalls_clearEng (s : State) (l : List Nat) : (s.freeFalls l).clearEng = s.clearEng := rfl
@[simp] theorem State.freeFalls_arbPos (s : State) (l : List Nat) : (s.freeFalls l).arbPos = s.arbPos := rfl
@[simp] theorem State.freeFalls_recs (s : State) (l : List Nat) : (s.freeFalls l).recs = s.recs := rfl
@[simp] theorem State.freeFalls_chBlocks (s : State) (l : List Nat) : (s.freeFalls l).chBlocks = s.chBlocks := rfl
@[simp] theorem State.freeFalls_chChains (s : State) (l : List Nat) : (s.freeFalls l).chChains = s.chChains := rfl
@[simp] theorem State.freeFalls_sealQ (s : State) (l : List Nat) : (s.freeFalls l).sealQ = s.sealQ := rfl
@[simp] theorem State.freeFalls_sealEng (s : State) (l : List Nat) : (s.freeFalls l).sealEng = s.sealEng := rfl
@[simp] theorem State.freeFalls_inqs (s : State) (l : List Nat) : (s.freeFalls l).inqs = s.inqs := rfl
@[simp] theorem State.freeFalls_notqs (s : State) (l : List Nat) : (s.freeFalls l).notqs = s.notqs := rfl
@[simp] theorem State.freeFalls_divider (s : State) (l : List Nat) : (s.freeFalls l).divider = s.divider := rfl
@[simp] theorem State.freeFalls_leases (s : State) (l : List Nat) : (s.freeFalls l).leases = s.leases := rfl
@[simp] theorem State.freeFalls_claimLease (s : State) (l : List Nat) : (s.freeFalls l).claimLease = s.claimLease := rfl
@[simp] theorem State.freeFalls_enables (s : State) (l : List Nat) : (s.freeFalls l).enables = s.enables := rfl
@[simp] theorem State.freeFalls_committed (s : State) (l : List Nat) : (s.freeFalls l).committed = s.committed := rfl
@[simp] theorem State.freeFalls_claim (s : State) (l : List Nat) : (s.freeFalls l).claim = s.claim := rfl
@[simp] theorem State.freeFalls_pius (s : State) (l : List Nat) : (s.freeFalls l).pius = s.pius := rfl
@[simp] theorem State.freeFalls_pending (s : State) (l : List Nat) : (s.freeFalls l).pending = s.pending := rfl
@[simp] theorem State.freeFalls_fresh (s : State) (l : List Nat) : (s.freeFalls l).fresh = s.fresh := rfl

/-! ### freeRises -/

@[simp] theorem State.freeRises_resetn (s : State) (l : List Nat) : (s.freeRises l).resetn = s.resetn := rfl
@[simp] theorem State.freeRises_ready (s : State) (l : List Nat) : (s.freeRises l).ready = s.ready := rfl
@[simp] theorem State.freeRises_store (s : State) (l : List Nat) : (s.freeRises l).store = s.store := rfl
@[simp] theorem State.freeRises_clearQ (s : State) (l : List Nat) : (s.freeRises l).clearQ = s.clearQ := rfl
@[simp] theorem State.freeRises_clearEng (s : State) (l : List Nat) : (s.freeRises l).clearEng = s.clearEng := rfl
@[simp] theorem State.freeRises_arbPos (s : State) (l : List Nat) : (s.freeRises l).arbPos = s.arbPos := rfl
@[simp] theorem State.freeRises_recs (s : State) (l : List Nat) : (s.freeRises l).recs = s.recs := rfl
@[simp] theorem State.freeRises_chBlocks (s : State) (l : List Nat) : (s.freeRises l).chBlocks = s.chBlocks := rfl
@[simp] theorem State.freeRises_chChains (s : State) (l : List Nat) : (s.freeRises l).chChains = s.chChains := rfl
@[simp] theorem State.freeRises_sealQ (s : State) (l : List Nat) : (s.freeRises l).sealQ = s.sealQ := rfl
@[simp] theorem State.freeRises_sealEng (s : State) (l : List Nat) : (s.freeRises l).sealEng = s.sealEng := rfl
@[simp] theorem State.freeRises_inqs (s : State) (l : List Nat) : (s.freeRises l).inqs = s.inqs := rfl
@[simp] theorem State.freeRises_notqs (s : State) (l : List Nat) : (s.freeRises l).notqs = s.notqs := rfl
@[simp] theorem State.freeRises_divider (s : State) (l : List Nat) : (s.freeRises l).divider = s.divider := rfl
@[simp] theorem State.freeRises_leases (s : State) (l : List Nat) : (s.freeRises l).leases = s.leases := rfl
@[simp] theorem State.freeRises_claimLease (s : State) (l : List Nat) : (s.freeRises l).claimLease = s.claimLease := rfl
@[simp] theorem State.freeRises_edges (s : State) (l : List Nat) : (s.freeRises l).edges = s.edges := rfl
@[simp] theorem State.freeRises_enables (s : State) (l : List Nat) : (s.freeRises l).enables = s.enables := rfl
@[simp] theorem State.freeRises_committed (s : State) (l : List Nat) : (s.freeRises l).committed = s.committed := rfl
@[simp] theorem State.freeRises_claim (s : State) (l : List Nat) : (s.freeRises l).claim = s.claim := rfl
@[simp] theorem State.freeRises_pius (s : State) (l : List Nat) : (s.freeRises l).pius = s.pius := rfl
@[simp] theorem State.freeRises_pending (s : State) (l : List Nat) : (s.freeRises l).pending = s.pending := rfl
@[simp] theorem State.freeRises_fresh (s : State) (l : List Nat) : (s.freeRises l).fresh = s.fresh := rfl

/-! ### offer -/

@[simp] theorem State.offer_resetn (s : State) (p : Port) (m : Notice) : (s.offer p m).resetn = s.resetn := rfl
@[simp] theorem State.offer_ready (s : State) (p : Port) (m : Notice) : (s.offer p m).ready = s.ready := rfl
@[simp] theorem State.offer_store (s : State) (p : Port) (m : Notice) : (s.offer p m).store = s.store := rfl
@[simp] theorem State.offer_free (s : State) (p : Port) (m : Notice) : (s.offer p m).free = s.free := rfl
@[simp] theorem State.offer_clearQ (s : State) (p : Port) (m : Notice) : (s.offer p m).clearQ = s.clearQ := rfl
@[simp] theorem State.offer_clearEng (s : State) (p : Port) (m : Notice) : (s.offer p m).clearEng = s.clearEng := rfl
@[simp] theorem State.offer_watermark (s : State) (p : Port) (m : Notice) : (s.offer p m).watermark = s.watermark := rfl
@[simp] theorem State.offer_arbPos (s : State) (p : Port) (m : Notice) : (s.offer p m).arbPos = s.arbPos := rfl
@[simp] theorem State.offer_recs (s : State) (p : Port) (m : Notice) : (s.offer p m).recs = s.recs := rfl
@[simp] theorem State.offer_chBlocks (s : State) (p : Port) (m : Notice) : (s.offer p m).chBlocks = s.chBlocks := rfl
@[simp] theorem State.offer_chChains (s : State) (p : Port) (m : Notice) : (s.offer p m).chChains = s.chChains := rfl
@[simp] theorem State.offer_sealQ (s : State) (p : Port) (m : Notice) : (s.offer p m).sealQ = s.sealQ := rfl
@[simp] theorem State.offer_sealEng (s : State) (p : Port) (m : Notice) : (s.offer p m).sealEng = s.sealEng := rfl
@[simp] theorem State.offer_inqs (s : State) (p : Port) (m : Notice) : (s.offer p m).inqs = s.inqs := rfl
@[simp] theorem State.offer_divider (s : State) (p : Port) (m : Notice) : (s.offer p m).divider = s.divider := rfl
@[simp] theorem State.offer_leases (s : State) (p : Port) (m : Notice) : (s.offer p m).leases = s.leases := rfl
@[simp] theorem State.offer_claimLease (s : State) (p : Port) (m : Notice) : (s.offer p m).claimLease = s.claimLease := rfl
@[simp] theorem State.offer_enables (s : State) (p : Port) (m : Notice) : (s.offer p m).enables = s.enables := rfl
@[simp] theorem State.offer_committed (s : State) (p : Port) (m : Notice) : (s.offer p m).committed = s.committed := rfl
@[simp] theorem State.offer_claim (s : State) (p : Port) (m : Notice) : (s.offer p m).claim = s.claim := rfl
@[simp] theorem State.offer_pius (s : State) (p : Port) (m : Notice) : (s.offer p m).pius = s.pius := rfl
@[simp] theorem State.offer_pending (s : State) (p : Port) (m : Notice) : (s.offer p m).pending = s.pending := rfl
@[simp] theorem State.offer_fresh (s : State) (p : Port) (m : Notice) : (s.offer p m).fresh = s.fresh := rfl

/-! ### startRun -/

@[simp] theorem State.startRun_resetn (s : State) : (s.startRun).resetn = s.resetn := rfl
@[simp] theorem State.startRun_ready (s : State) : (s.startRun).ready = s.ready := rfl
@[simp] theorem State.startRun_store (s : State) : (s.startRun).store = s.store := rfl
@[simp] theorem State.startRun_free (s : State) : (s.startRun).free = s.free := rfl
@[simp] theorem State.startRun_clearQ (s : State) : (s.startRun).clearQ = s.clearQ := rfl
@[simp] theorem State.startRun_clearEng (s : State) : (s.startRun).clearEng = s.clearEng := rfl
@[simp] theorem State.startRun_watermark (s : State) : (s.startRun).watermark = s.watermark := rfl
@[simp] theorem State.startRun_arbPos (s : State) : (s.startRun).arbPos = s.arbPos := rfl
@[simp] theorem State.startRun_recs (s : State) : (s.startRun).recs = s.recs := rfl
@[simp] theorem State.startRun_chBlocks (s : State) : (s.startRun).chBlocks = s.chBlocks := rfl
@[simp] theorem State.startRun_chChains (s : State) : (s.startRun).chChains = s.chChains := rfl
@[simp] theorem State.startRun_inqs (s : State) : (s.startRun).inqs = s.inqs := rfl
@[simp] theorem State.startRun_notqs (s : State) : (s.startRun).notqs = s.notqs := rfl
@[simp] theorem State.startRun_divider (s : State) : (s.startRun).divider = s.divider := rfl
@[simp] theorem State.startRun_leases (s : State) : (s.startRun).leases = s.leases := rfl
@[simp] theorem State.startRun_claimLease (s : State) : (s.startRun).claimLease = s.claimLease := rfl
@[simp] theorem State.startRun_edges (s : State) : (s.startRun).edges = s.edges := rfl
@[simp] theorem State.startRun_enables (s : State) : (s.startRun).enables = s.enables := rfl
@[simp] theorem State.startRun_committed (s : State) : (s.startRun).committed = s.committed := rfl
@[simp] theorem State.startRun_claim (s : State) : (s.startRun).claim = s.claim := rfl
@[simp] theorem State.startRun_pius (s : State) : (s.startRun).pius = s.pius := rfl
@[simp] theorem State.startRun_pending (s : State) : (s.startRun).pending = s.pending := rfl
@[simp] theorem State.startRun_fresh (s : State) : (s.startRun).fresh = s.fresh := rfl

/-! ### voidEntries -/

@[simp] theorem State.voidEntries_resetn (s : State) (r : ChainRef) : (s.voidEntries r).resetn = s.resetn := rfl
@[simp] theorem State.voidEntries_ready (s : State) (r : ChainRef) : (s.voidEntries r).ready = s.ready := rfl
@[simp] theorem State.voidEntries_store (s : State) (r : ChainRef) : (s.voidEntries r).store = s.store := rfl
@[simp] theorem State.voidEntries_free (s : State) (r : ChainRef) : (s.voidEntries r).free = s.free := rfl
@[simp] theorem State.voidEntries_clearQ (s : State) (r : ChainRef) : (s.voidEntries r).clearQ = s.clearQ := rfl
@[simp] theorem State.voidEntries_clearEng (s : State) (r : ChainRef) : (s.voidEntries r).clearEng = s.clearEng := rfl
@[simp] theorem State.voidEntries_watermark (s : State) (r : ChainRef) : (s.voidEntries r).watermark = s.watermark := rfl
@[simp] theorem State.voidEntries_arbPos (s : State) (r : ChainRef) : (s.voidEntries r).arbPos = s.arbPos := rfl
@[simp] theorem State.voidEntries_recs (s : State) (r : ChainRef) : (s.voidEntries r).recs = s.recs := rfl
@[simp] theorem State.voidEntries_chBlocks (s : State) (r : ChainRef) : (s.voidEntries r).chBlocks = s.chBlocks := rfl
@[simp] theorem State.voidEntries_chChains (s : State) (r : ChainRef) : (s.voidEntries r).chChains = s.chChains := rfl
@[simp] theorem State.voidEntries_sealQ (s : State) (r : ChainRef) : (s.voidEntries r).sealQ = s.sealQ := rfl
@[simp] theorem State.voidEntries_sealEng (s : State) (r : ChainRef) : (s.voidEntries r).sealEng = s.sealEng := rfl
@[simp] theorem State.voidEntries_notqs (s : State) (r : ChainRef) : (s.voidEntries r).notqs = s.notqs := rfl
@[simp] theorem State.voidEntries_divider (s : State) (r : ChainRef) : (s.voidEntries r).divider = s.divider := rfl
@[simp] theorem State.voidEntries_leases (s : State) (r : ChainRef) : (s.voidEntries r).leases = s.leases := rfl
@[simp] theorem State.voidEntries_claimLease (s : State) (r : ChainRef) : (s.voidEntries r).claimLease = s.claimLease := rfl
@[simp] theorem State.voidEntries_edges (s : State) (r : ChainRef) : (s.voidEntries r).edges = s.edges := rfl
@[simp] theorem State.voidEntries_enables (s : State) (r : ChainRef) : (s.voidEntries r).enables = s.enables := rfl
@[simp] theorem State.voidEntries_committed (s : State) (r : ChainRef) : (s.voidEntries r).committed = s.committed := rfl
@[simp] theorem State.voidEntries_claim (s : State) (r : ChainRef) : (s.voidEntries r).claim = s.claim := rfl
@[simp] theorem State.voidEntries_pius (s : State) (r : ChainRef) : (s.voidEntries r).pius = s.pius := rfl
@[simp] theorem State.voidEntries_pending (s : State) (r : ChainRef) : (s.voidEntries r).pending = s.pending := rfl
@[simp] theorem State.voidEntries_fresh (s : State) (r : ChainRef) : (s.voidEntries r).fresh = s.fresh := rfl

/-! ### endStreams -/

@[simp] theorem State.endStreams_resetn (s : State) (r : ChainRef) : (s.endStreams r).resetn = s.resetn := rfl
@[simp] theorem State.endStreams_ready (s : State) (r : ChainRef) : (s.endStreams r).ready = s.ready := rfl
@[simp] theorem State.endStreams_store (s : State) (r : ChainRef) : (s.endStreams r).store = s.store := rfl
@[simp] theorem State.endStreams_free (s : State) (r : ChainRef) : (s.endStreams r).free = s.free := rfl
@[simp] theorem State.endStreams_clearQ (s : State) (r : ChainRef) : (s.endStreams r).clearQ = s.clearQ := rfl
@[simp] theorem State.endStreams_clearEng (s : State) (r : ChainRef) : (s.endStreams r).clearEng = s.clearEng := rfl
@[simp] theorem State.endStreams_watermark (s : State) (r : ChainRef) : (s.endStreams r).watermark = s.watermark := rfl
@[simp] theorem State.endStreams_arbPos (s : State) (r : ChainRef) : (s.endStreams r).arbPos = s.arbPos := rfl
@[simp] theorem State.endStreams_recs (s : State) (r : ChainRef) : (s.endStreams r).recs = s.recs := rfl
@[simp] theorem State.endStreams_chBlocks (s : State) (r : ChainRef) : (s.endStreams r).chBlocks = s.chBlocks := rfl
@[simp] theorem State.endStreams_chChains (s : State) (r : ChainRef) : (s.endStreams r).chChains = s.chChains := rfl
@[simp] theorem State.endStreams_sealQ (s : State) (r : ChainRef) : (s.endStreams r).sealQ = s.sealQ := rfl
@[simp] theorem State.endStreams_sealEng (s : State) (r : ChainRef) : (s.endStreams r).sealEng = s.sealEng := rfl
@[simp] theorem State.endStreams_inqs (s : State) (r : ChainRef) : (s.endStreams r).inqs = s.inqs := rfl
@[simp] theorem State.endStreams_notqs (s : State) (r : ChainRef) : (s.endStreams r).notqs = s.notqs := rfl
@[simp] theorem State.endStreams_divider (s : State) (r : ChainRef) : (s.endStreams r).divider = s.divider := rfl
@[simp] theorem State.endStreams_leases (s : State) (r : ChainRef) : (s.endStreams r).leases = s.leases := rfl
@[simp] theorem State.endStreams_claimLease (s : State) (r : ChainRef) : (s.endStreams r).claimLease = s.claimLease := rfl
@[simp] theorem State.endStreams_edges (s : State) (r : ChainRef) : (s.endStreams r).edges = s.edges := rfl
@[simp] theorem State.endStreams_enables (s : State) (r : ChainRef) : (s.endStreams r).enables = s.enables := rfl
@[simp] theorem State.endStreams_committed (s : State) (r : ChainRef) : (s.endStreams r).committed = s.committed := rfl
@[simp] theorem State.endStreams_claim (s : State) (r : ChainRef) : (s.endStreams r).claim = s.claim := rfl
@[simp] theorem State.endStreams_pending (s : State) (r : ChainRef) : (s.endStreams r).pending = s.pending := rfl
@[simp] theorem State.endStreams_fresh (s : State) (r : ChainRef) : (s.endStreams r).fresh = s.fresh := rfl

/-! ### placeEntries -/

@[simp] theorem State.placeEntries_resetn (s : State) (d : PortSet) (e : Entry) : (s.placeEntries d e).resetn = s.resetn := rfl
@[simp] theorem State.placeEntries_ready (s : State) (d : PortSet) (e : Entry) : (s.placeEntries d e).ready = s.ready := rfl
@[simp] theorem State.placeEntries_store (s : State) (d : PortSet) (e : Entry) : (s.placeEntries d e).store = s.store := rfl
@[simp] theorem State.placeEntries_free (s : State) (d : PortSet) (e : Entry) : (s.placeEntries d e).free = s.free := rfl
@[simp] theorem State.placeEntries_clearQ (s : State) (d : PortSet) (e : Entry) : (s.placeEntries d e).clearQ = s.clearQ := rfl
@[simp] theorem State.placeEntries_clearEng (s : State) (d : PortSet) (e : Entry) : (s.placeEntries d e).clearEng = s.clearEng := rfl
@[simp] theorem State.placeEntries_watermark (s : State) (d : PortSet) (e : Entry) : (s.placeEntries d e).watermark = s.watermark := rfl
@[simp] theorem State.placeEntries_arbPos (s : State) (d : PortSet) (e : Entry) : (s.placeEntries d e).arbPos = s.arbPos := rfl
@[simp] theorem State.placeEntries_recs (s : State) (d : PortSet) (e : Entry) : (s.placeEntries d e).recs = s.recs := rfl
@[simp] theorem State.placeEntries_chBlocks (s : State) (d : PortSet) (e : Entry) : (s.placeEntries d e).chBlocks = s.chBlocks := rfl
@[simp] theorem State.placeEntries_chChains (s : State) (d : PortSet) (e : Entry) : (s.placeEntries d e).chChains = s.chChains := rfl
@[simp] theorem State.placeEntries_sealQ (s : State) (d : PortSet) (e : Entry) : (s.placeEntries d e).sealQ = s.sealQ := rfl
@[simp] theorem State.placeEntries_sealEng (s : State) (d : PortSet) (e : Entry) : (s.placeEntries d e).sealEng = s.sealEng := rfl
@[simp] theorem State.placeEntries_notqs (s : State) (d : PortSet) (e : Entry) : (s.placeEntries d e).notqs = s.notqs := rfl
@[simp] theorem State.placeEntries_divider (s : State) (d : PortSet) (e : Entry) : (s.placeEntries d e).divider = s.divider := rfl
@[simp] theorem State.placeEntries_leases (s : State) (d : PortSet) (e : Entry) : (s.placeEntries d e).leases = s.leases := rfl
@[simp] theorem State.placeEntries_claimLease (s : State) (d : PortSet) (e : Entry) : (s.placeEntries d e).claimLease = s.claimLease := rfl
@[simp] theorem State.placeEntries_edges (s : State) (d : PortSet) (e : Entry) : (s.placeEntries d e).edges = s.edges := rfl
@[simp] theorem State.placeEntries_enables (s : State) (d : PortSet) (e : Entry) : (s.placeEntries d e).enables = s.enables := rfl
@[simp] theorem State.placeEntries_committed (s : State) (d : PortSet) (e : Entry) : (s.placeEntries d e).committed = s.committed := rfl
@[simp] theorem State.placeEntries_claim (s : State) (d : PortSet) (e : Entry) : (s.placeEntries d e).claim = s.claim := rfl
@[simp] theorem State.placeEntries_pius (s : State) (d : PortSet) (e : Entry) : (s.placeEntries d e).pius = s.pius := rfl
@[simp] theorem State.placeEntries_pending (s : State) (d : PortSet) (e : Entry) : (s.placeEntries d e).pending = s.pending := rfl
@[simp] theorem State.placeEntries_fresh (s : State) (d : PortSet) (e : Entry) : (s.placeEntries d e).fresh = s.fresh := rfl

/-! ### stripPort -/

@[simp] theorem State.stripPort_resetn (s : State) (p : Port) (r : ResultRec) : (s.stripPort p r).resetn = s.resetn := rfl
@[simp] theorem State.stripPort_ready (s : State) (p : Port) (r : ResultRec) : (s.stripPort p r).ready = s.ready := rfl
@[simp] theorem State.stripPort_store (s : State) (p : Port) (r : ResultRec) : (s.stripPort p r).store = s.store := rfl
@[simp] theorem State.stripPort_free (s : State) (p : Port) (r : ResultRec) : (s.stripPort p r).free = s.free := rfl
@[simp] theorem State.stripPort_clearQ (s : State) (p : Port) (r : ResultRec) : (s.stripPort p r).clearQ = s.clearQ := rfl
@[simp] theorem State.stripPort_clearEng (s : State) (p : Port) (r : ResultRec) : (s.stripPort p r).clearEng = s.clearEng := rfl
@[simp] theorem State.stripPort_watermark (s : State) (p : Port) (r : ResultRec) : (s.stripPort p r).watermark = s.watermark := rfl
@[simp] theorem State.stripPort_arbPos (s : State) (p : Port) (r : ResultRec) : (s.stripPort p r).arbPos = s.arbPos := rfl
@[simp] theorem State.stripPort_recs (s : State) (p : Port) (r : ResultRec) : (s.stripPort p r).recs = s.recs := rfl
@[simp] theorem State.stripPort_chBlocks (s : State) (p : Port) (r : ResultRec) : (s.stripPort p r).chBlocks = s.chBlocks := rfl
@[simp] theorem State.stripPort_chChains (s : State) (p : Port) (r : ResultRec) : (s.stripPort p r).chChains = s.chChains := rfl
@[simp] theorem State.stripPort_sealQ (s : State) (p : Port) (r : ResultRec) : (s.stripPort p r).sealQ = s.sealQ := rfl
@[simp] theorem State.stripPort_sealEng (s : State) (p : Port) (r : ResultRec) : (s.stripPort p r).sealEng = s.sealEng := rfl
@[simp] theorem State.stripPort_divider (s : State) (p : Port) (r : ResultRec) : (s.stripPort p r).divider = s.divider := rfl
@[simp] theorem State.stripPort_leases (s : State) (p : Port) (r : ResultRec) : (s.stripPort p r).leases = s.leases := rfl
@[simp] theorem State.stripPort_committed (s : State) (p : Port) (r : ResultRec) : (s.stripPort p r).committed = s.committed := rfl
@[simp] theorem State.stripPort_pending (s : State) (p : Port) (r : ResultRec) : (s.stripPort p r).pending = s.pending := rfl

/-! ### sparing -/

@[simp] theorem State.sparing_resetn (m : PortSet) (s t : State) : (s.sparing m t).resetn = t.resetn := rfl
@[simp] theorem State.sparing_ready (m : PortSet) (s t : State) : (s.sparing m t).ready = t.ready := rfl
@[simp] theorem State.sparing_store (m : PortSet) (s t : State) : (s.sparing m t).store = t.store := rfl
@[simp] theorem State.sparing_free (m : PortSet) (s t : State) : (s.sparing m t).free = t.free := rfl
@[simp] theorem State.sparing_clearQ (m : PortSet) (s t : State) : (s.sparing m t).clearQ = t.clearQ := rfl
@[simp] theorem State.sparing_clearEng (m : PortSet) (s t : State) : (s.sparing m t).clearEng = t.clearEng := rfl
@[simp] theorem State.sparing_watermark (m : PortSet) (s t : State) : (s.sparing m t).watermark = t.watermark := rfl
@[simp] theorem State.sparing_arbPos (m : PortSet) (s t : State) : (s.sparing m t).arbPos = t.arbPos := rfl
@[simp] theorem State.sparing_recs (m : PortSet) (s t : State) : (s.sparing m t).recs = t.recs := rfl
@[simp] theorem State.sparing_chBlocks (m : PortSet) (s t : State) : (s.sparing m t).chBlocks = t.chBlocks := rfl
@[simp] theorem State.sparing_chChains (m : PortSet) (s t : State) : (s.sparing m t).chChains = t.chChains := rfl
@[simp] theorem State.sparing_sealQ (m : PortSet) (s t : State) : (s.sparing m t).sealQ = t.sealQ := rfl
@[simp] theorem State.sparing_sealEng (m : PortSet) (s t : State) : (s.sparing m t).sealEng = t.sealEng := rfl
@[simp] theorem State.sparing_inqs (m : PortSet) (s t : State) : (s.sparing m t).inqs = t.inqs := rfl
@[simp] theorem State.sparing_divider (m : PortSet) (s t : State) : (s.sparing m t).divider = t.divider := rfl
@[simp] theorem State.sparing_leases (m : PortSet) (s t : State) : (s.sparing m t).leases = t.leases := rfl
@[simp] theorem State.sparing_claimLease (m : PortSet) (s t : State) : (s.sparing m t).claimLease = t.claimLease := rfl
@[simp] theorem State.sparing_enables (m : PortSet) (s t : State) : (s.sparing m t).enables = t.enables := rfl
@[simp] theorem State.sparing_committed (m : PortSet) (s t : State) : (s.sparing m t).committed = t.committed := rfl
@[simp] theorem State.sparing_claim (m : PortSet) (s t : State) : (s.sparing m t).claim = t.claim := rfl
@[simp] theorem State.sparing_pius (m : PortSet) (s t : State) : (s.sparing m t).pius = t.pius := rfl
@[simp] theorem State.sparing_pending (m : PortSet) (s t : State) : (s.sparing m t).pending = t.pending := rfl
@[simp] theorem State.sparing_fresh (m : PortSet) (s t : State) : (s.sparing m t).fresh = t.fresh := rfl

/-! ### The field an update writes -/

@[simp] theorem State.setPiu_pius (s : State) (p : Port) (u : Piu) : (s.setPiu p u).pius = s.pius.set p u := rfl
@[simp] theorem State.setRec_recs (s : State) (n : ChainNo) (r : ChainRec) : (s.setRec n r).recs = s.recs.set n r := rfl
@[simp] theorem State.setLease_leases (s : State) (n : ChainNo) (c : Lease) :
    (s.setLease n c).leases = s.leases.set n c := rfl
@[simp] theorem State.setInq_inqs (s : State) (p : Port) (q : InQueue) : (s.setInq p q).inqs = s.inqs.set p q := rfl
@[simp] theorem State.setNotq_notqs (s : State) (p : Port) (q : List Notice) :
    (s.setNotq p q).notqs = s.notqs.set p q := rfl
@[simp] theorem State.setLink_pius (s : State) (p : Port) (l : Link) :
    (s.setLink p l).pius = s.pius.set p { s.pius[p] with link := l, wire := Wire.idle } := rfl
@[simp] theorem State.setWire_pius (s : State) (p : Port) (w : Wire) :
    (s.setWire p w).pius = s.pius.set p { s.pius[p] with wire := w } := rfl
@[simp] theorem State.byteEnd_pius (s : State) (p : Port) :
    (s.byteEnd p).pius = s.pius.set p { s.pius[p] with wire := Wire.idle } := rfl
@[simp] theorem State.deselect_pius (s : State) (p : Port) : (s.deselect p).pius = s.pius.set p s.pius[p].closed := rfl
@[simp] theorem State.answers_pius (s : State) (p : Port) (c : Byte) (e : Ending) :
    (s.answers p c e).pius = s.pius.set p (s.pius[p].answered c e) := rfl
@[simp] theorem State.freeFalls_free (s : State) (l : List Nat) : (s.freeFalls l).free = l := rfl
@[simp] theorem State.freeRises_free (s : State) (l : List Nat) : (s.freeRises l).free = l := rfl
@[simp] theorem State.charge_chBlocks (s : State) (p : Port) (b c : Nat) :
    (s.charge p b c).chBlocks = s.chBlocks.set p (s.chBlocks[p] + b) := rfl
@[simp] theorem State.charge_chChains (s : State) (p : Port) (b c : Nat) :
    (s.charge p b c).chChains = s.chChains.set p (s.chChains[p] + c) := rfl
@[simp] theorem State.discharge_chBlocks (s : State) (p : Port) (b c : Nat) :
    (s.discharge p b c).chBlocks = s.chBlocks.set p (s.chBlocks[p] - b) := rfl
@[simp] theorem State.discharge_chChains (s : State) (p : Port) (b c : Nat) :
    (s.discharge p b c).chChains = s.chChains.set p (s.chChains[p] - c) := rfl
@[simp] theorem State.voidEntries_inqs (s : State) (r : ChainRef) :
    (s.voidEntries r).inqs = s.inqs.map (InQueue.voidRef r) := rfl
@[simp] theorem State.endStreams_pius (s : State) (r : ChainRef) :
    (s.endStreams r).pius = s.pius.map (Piu.revoke r) := rfl

/-- The link between two bytes, spelled out as the statements spell it. -/
@[simp] theorem Wire.idle_eq : Wire.idle = { bits := [], out := none } := rfl

/-- Closing a transaction and recording its outcome are one update of the PIU. -/
theorem State.deselect_record (s : State) (p : Port) (c : Byte) (e : Ending) :
    (s.deselect p).record p c e = s.answers p c e := by
  simp [State.record, State.deselect, State.answers, State.setPiu, Piu.answered, Wire.idle]

/-- A byte that leaves the link in the transaction state it was in changes nothing else. -/
theorem State.setLink_same {s : State} {p : Port} {l : Link} (h : s.pius[p].link = l) : s.setLink p l = s.byteEnd p := by
  subst h; rfl

/-- A byte's end before another state of the link is written. -/
@[simp] theorem State.byteEnd_setLink (s : State) (p : Port) (l : Link) : (s.byteEnd p).setLink p l = s.setLink p l := by
  simp [State.byteEnd, State.setWire, State.setLink, State.setPiu]

/-- Replacing a PIU by itself changes nothing. -/
theorem State.setPiu_self (s : State) (p : Port) : s.setPiu p s.pius[p] = s := by
  simp [State.setPiu]

end Sys2Proof.Machine
end

