-- ==== Sys2Proof/Laws/Ops.lean ====
section
/-! SUPPORT. What the composite operations leave unchanged, field by field, and what they write: the release of a block
list, the cancelling of a seal, the vacate of a record, a departure, an expiry, a withdrawal, the arbiter's choice. -/

namespace Sys2Proof.Machine

/-! ### release -/

@[simp] theorem State.release_resetn (s : State) (l : List Nat) : (s.release l).resetn = s.resetn := by
  unfold State.release; split; · rfl
  · split <;> rfl
@[simp] theorem State.release_ready (s : State) (l : List Nat) : (s.release l).ready = s.ready := by
  unfold State.release; split; · rfl
  · split <;> rfl
@[simp] theorem State.release_store (s : State) (l : List Nat) : (s.release l).store = s.store := by
  unfold State.release; split; · rfl
  · split <;> rfl
@[simp] theorem State.release_clearEng (s : State) (l : List Nat) : (s.release l).clearEng = s.clearEng := by
  unfold State.release; split; · rfl
  · split <;> rfl
@[simp] theorem State.release_arbPos (s : State) (l : List Nat) : (s.release l).arbPos = s.arbPos := by
  unfold State.release; split; · rfl
  · split <;> rfl
@[simp] theorem State.release_recs (s : State) (l : List Nat) : (s.release l).recs = s.recs := by
  unfold State.release; split; · rfl
  · split <;> rfl
@[simp] theorem State.release_chBlocks (s : State) (l : List Nat) : (s.release l).chBlocks = s.chBlocks := by
  unfold State.release; split; · rfl
  · split <;> rfl
@[simp] theorem State.release_chChains (s : State) (l : List Nat) : (s.release l).chChains = s.chChains := by
  unfold State.release; split; · rfl
  · split <;> rfl
@[simp] theorem State.release_sealQ (s : State) (l : List Nat) : (s.release l).sealQ = s.sealQ := by
  unfold State.release; split; · rfl
  · split <;> rfl
@[simp] theorem State.release_sealEng (s : State) (l : List Nat) : (s.release l).sealEng = s.sealEng := by
  unfold State.release; split; · rfl
  · split <;> rfl
@[simp] theorem State.release_inqs (s : State) (l : List Nat) : (s.release l).inqs = s.inqs := by
  unfold State.release; split; · rfl
  · split <;> rfl
@[simp] theorem State.release_notqs (s : State) (l : List Nat) : (s.release l).notqs = s.notqs := by
  unfold State.release; split; · rfl
  · split <;> rfl
@[simp] theorem State.release_divider (s : State) (l : List Nat) : (s.release l).divider = s.divider := by
  unfold State.release; split; · rfl
  · split <;> rfl
@[simp] theorem State.release_leases (s : State) (l : List Nat) : (s.release l).leases = s.leases := by
  unfold State.release; split; · rfl
  · split <;> rfl
@[simp] theorem State.release_claimLease (s : State) (l : List Nat) : (s.release l).claimLease = s.claimLease := by
  unfold State.release; split; · rfl
  · split <;> rfl
@[simp] theorem State.release_edges (s : State) (l : List Nat) : (s.release l).edges = s.edges := by
  unfold State.release; split; · rfl
  · split <;> rfl
@[simp] theorem State.release_enables (s : State) (l : List Nat) : (s.release l).enables = s.enables := by
  unfold State.release; split; · rfl
  · split <;> rfl
@[simp] theorem State.release_committed (s : State) (l : List Nat) : (s.release l).committed = s.committed := by
  unfold State.release; split; · rfl
  · split <;> rfl
@[simp] theorem State.release_claim (s : State) (l : List Nat) : (s.release l).claim = s.claim := by
  unfold State.release; split; · rfl
  · split <;> rfl
@[simp] theorem State.release_pius (s : State) (l : List Nat) : (s.release l).pius = s.pius := by
  unfold State.release; split; · rfl
  · split <;> rfl
@[simp] theorem State.release_pending (s : State) (l : List Nat) : (s.release l).pending = s.pending := by
  unfold State.release; split; · rfl
  · split <;> rfl
@[simp] theorem State.release_fresh (s : State) (l : List Nat) : (s.release l).fresh = s.fresh := by
  unfold State.release; split; · rfl
  · split <;> rfl

/-! ### uncharge -/

@[simp] theorem State.uncharge_resetn (s : State) (r : ChainRec) : (s.uncharge r).resetn = s.resetn := by
  unfold State.uncharge; split <;> rfl
@[simp] theorem State.uncharge_ready (s : State) (r : ChainRec) : (s.uncharge r).ready = s.ready := by
  unfold State.uncharge; split <;> rfl
@[simp] theorem State.uncharge_store (s : State) (r : ChainRec) : (s.uncharge r).store = s.store := by
  unfold State.uncharge; split <;> rfl
@[simp] theorem State.uncharge_free (s : State) (r : ChainRec) : (s.uncharge r).free = s.free := by
  unfold State.uncharge; split <;> rfl
@[simp] theorem State.uncharge_clearQ (s : State) (r : ChainRec) : (s.uncharge r).clearQ = s.clearQ := by
  unfold State.uncharge; split <;> rfl
@[simp] theorem State.uncharge_clearEng (s : State) (r : ChainRec) : (s.uncharge r).clearEng = s.clearEng := by
  unfold State.uncharge; split <;> rfl
@[simp] theorem State.uncharge_watermark (s : State) (r : ChainRec) : (s.uncharge r).watermark = s.watermark := by
  unfold State.uncharge; split <;> rfl
@[simp] theorem State.uncharge_arbPos (s : State) (r : ChainRec) : (s.uncharge r).arbPos = s.arbPos := by
  unfold State.uncharge; split <;> rfl
@[simp] theorem State.uncharge_recs (s : State) (r : ChainRec) : (s.uncharge r).recs = s.recs := by
  unfold State.uncharge; split <;> rfl
@[simp] theorem State.uncharge_sealQ (s : State) (r : ChainRec) : (s.uncharge r).sealQ = s.sealQ := by
  unfold State.uncharge; split <;> rfl
@[simp] theorem State.uncharge_sealEng (s : State) (r : ChainRec) : (s.uncharge r).sealEng = s.sealEng := by
  unfold State.uncharge; split <;> rfl
@[simp] theorem State.uncharge_inqs (s : State) (r : ChainRec) : (s.uncharge r).inqs = s.inqs := by
  unfold State.uncharge; split <;> rfl
@[simp] theorem State.uncharge_notqs (s : State) (r : ChainRec) : (s.uncharge r).notqs = s.notqs := by
  unfold State.uncharge; split <;> rfl
@[simp] theorem State.uncharge_divider (s : State) (r : ChainRec) : (s.uncharge r).divider = s.divider := by
  unfold State.uncharge; split <;> rfl
@[simp] theorem State.uncharge_leases (s : State) (r : ChainRec) : (s.uncharge r).leases = s.leases := by
  unfold State.uncharge; split <;> rfl
@[simp] theorem State.uncharge_claimLease (s : State) (r : ChainRec) : (s.uncharge r).claimLease = s.claimLease := by
  unfold State.uncharge; split <;> rfl
@[simp] theorem State.uncharge_edges (s : State) (r : ChainRec) : (s.uncharge r).edges = s.edges := by
  unfold State.uncharge; split <;> rfl
@[simp] theorem State.uncharge_enables (s : State) (r : ChainRec) : (s.uncharge r).enables = s.enables := by
  unfold State.uncharge; split <;> rfl
@[simp] theorem State.uncharge_committed (s : State) (r : ChainRec) : (s.uncharge r).committed = s.committed := by
  unfold State.uncharge; split <;> rfl
@[simp] theorem State.uncharge_claim (s : State) (r : ChainRec) : (s.uncharge r).claim = s.claim := by
  unfold State.uncharge; split <;> rfl
@[simp] theorem State.uncharge_pius (s : State) (r : ChainRec) : (s.uncharge r).pius = s.pius := by
  unfold State.uncharge; split <;> rfl
@[simp] theorem State.uncharge_pending (s : State) (r : ChainRec) : (s.uncharge r).pending = s.pending := by
  unfold State.uncharge; split <;> rfl
@[simp] theorem State.uncharge_fresh (s : State) (r : ChainRec) : (s.uncharge r).fresh = s.fresh := by
  unfold State.uncharge; split <;> rfl

/-! ### cancelSeal -/

@[simp] theorem State.cancelSeal_resetn (s : State) (n : ChainNo) : (s.cancelSeal n).resetn = s.resetn := by
  unfold State.cancelSeal; split <;> rfl
@[simp] theorem State.cancelSeal_ready (s : State) (n : ChainNo) : (s.cancelSeal n).ready = s.ready := by
  unfold State.cancelSeal; split <;> rfl
@[simp] theorem State.cancelSeal_store (s : State) (n : ChainNo) : (s.cancelSeal n).store = s.store := by
  unfold State.cancelSeal; split <;> rfl
@[simp] theorem State.cancelSeal_free (s : State) (n : ChainNo) : (s.cancelSeal n).free = s.free := by
  unfold State.cancelSeal; split <;> rfl
@[simp] theorem State.cancelSeal_clearQ (s : State) (n : ChainNo) : (s.cancelSeal n).clearQ = s.clearQ := by
  unfold State.cancelSeal; split <;> rfl
@[simp] theorem State.cancelSeal_clearEng (s : State) (n : ChainNo) : (s.cancelSeal n).clearEng = s.clearEng := by
  unfold State.cancelSeal; split <;> rfl
@[simp] theorem State.cancelSeal_watermark (s : State) (n : ChainNo) : (s.cancelSeal n).watermark = s.watermark := by
  unfold State.cancelSeal; split <;> rfl
@[simp] theorem State.cancelSeal_arbPos (s : State) (n : ChainNo) : (s.cancelSeal n).arbPos = s.arbPos := by
  unfold State.cancelSeal; split <;> rfl
@[simp] theorem State.cancelSeal_recs (s : State) (n : ChainNo) : (s.cancelSeal n).recs = s.recs := by
  unfold State.cancelSeal; split <;> rfl
@[simp] theorem State.cancelSeal_chBlocks (s : State) (n : ChainNo) : (s.cancelSeal n).chBlocks = s.chBlocks := by
  unfold State.cancelSeal; split <;> rfl
@[simp] theorem State.cancelSeal_chChains (s : State) (n : ChainNo) : (s.cancelSeal n).chChains = s.chChains := by
  unfold State.cancelSeal; split <;> rfl
@[simp] theorem State.cancelSeal_inqs (s : State) (n : ChainNo) : (s.cancelSeal n).inqs = s.inqs := by
  unfold State.cancelSeal; split <;> rfl
@[simp] theorem State.cancelSeal_notqs (s : State) (n : ChainNo) : (s.cancelSeal n).notqs = s.notqs := by
  unfold State.cancelSeal; split <;> rfl
@[simp] theorem State.cancelSeal_divider (s : State) (n : ChainNo) : (s.cancelSeal n).divider = s.divider := by
  unfold State.cancelSeal; split <;> rfl
@[simp] theorem State.cancelSeal_leases (s : State) (n : ChainNo) : (s.cancelSeal n).leases = s.leases := by
  unfold State.cancelSeal; split <;> rfl
@[simp] theorem State.cancelSeal_claimLease (s : State) (n : ChainNo) : (s.cancelSeal n).claimLease = s.claimLease := by
  unfold State.cancelSeal; split <;> rfl
@[simp] theorem State.cancelSeal_edges (s : State) (n : ChainNo) : (s.cancelSeal n).edges = s.edges := by
  unfold State.cancelSeal; split <;> rfl
@[simp] theorem State.cancelSeal_enables (s : State) (n : ChainNo) : (s.cancelSeal n).enables = s.enables := by
  unfold State.cancelSeal; split <;> rfl
@[simp] theorem State.cancelSeal_committed (s : State) (n : ChainNo) : (s.cancelSeal n).committed = s.committed := by
  unfold State.cancelSeal; split <;> rfl
@[simp] theorem State.cancelSeal_claim (s : State) (n : ChainNo) : (s.cancelSeal n).claim = s.claim := by
  unfold State.cancelSeal; split <;> rfl
@[simp] theorem State.cancelSeal_pius (s : State) (n : ChainNo) : (s.cancelSeal n).pius = s.pius := by
  unfold State.cancelSeal; split <;> rfl
@[simp] theorem State.cancelSeal_pending (s : State) (n : ChainNo) : (s.cancelSeal n).pending = s.pending := by
  unfold State.cancelSeal; split <;> rfl
@[simp] theorem State.cancelSeal_fresh (s : State) (n : ChainNo) : (s.cancelSeal n).fresh = s.fresh := by
  unfold State.cancelSeal; split <;> rfl

/-! ### cancelIfSealing -/

@[simp] theorem State.cancelIfSealing_resetn (s : State) (n : ChainNo) : (s.cancelIfSealing n).resetn = s.resetn := by
  unfold State.cancelIfSealing; split <;> simp
@[simp] theorem State.cancelIfSealing_ready (s : State) (n : ChainNo) : (s.cancelIfSealing n).ready = s.ready := by
  unfold State.cancelIfSealing; split <;> simp
@[simp] theorem State.cancelIfSealing_store (s : State) (n : ChainNo) : (s.cancelIfSealing n).store = s.store := by
  unfold State.cancelIfSealing; split <;> simp
@[simp] theorem State.cancelIfSealing_free (s : State) (n : ChainNo) : (s.cancelIfSealing n).free = s.free := by
  unfold State.cancelIfSealing; split <;> simp
@[simp] theorem State.cancelIfSealing_clearQ (s : State) (n : ChainNo) : (s.cancelIfSealing n).clearQ = s.clearQ := by
  unfold State.cancelIfSealing; split <;> simp
@[simp] theorem State.cancelIfSealing_clearEng (s : State) (n : ChainNo) : (s.cancelIfSealing n).clearEng = s.clearEng := by
  unfold State.cancelIfSealing; split <;> simp
@[simp] theorem State.cancelIfSealing_watermark (s : State) (n : ChainNo) : (s.cancelIfSealing n).watermark = s.watermark := by
  unfold State.cancelIfSealing; split <;> simp
@[simp] theorem State.cancelIfSealing_arbPos (s : State) (n : ChainNo) : (s.cancelIfSealing n).arbPos = s.arbPos := by
  unfold State.cancelIfSealing; split <;> simp
@[simp] theorem State.cancelIfSealing_recs (s : State) (n : ChainNo) : (s.cancelIfSealing n).recs = s.recs := by
  unfold State.cancelIfSealing; split <;> simp
@[simp] theorem State.cancelIfSealing_chBlocks (s : State) (n : ChainNo) : (s.cancelIfSealing n).chBlocks = s.chBlocks := by
  unfold State.cancelIfSealing; split <;> simp
@[simp] theorem State.cancelIfSealing_chChains (s : State) (n : ChainNo) : (s.cancelIfSealing n).chChains = s.chChains := by
  unfold State.cancelIfSealing; split <;> simp
@[simp] theorem State.cancelIfSealing_inqs (s : State) (n : ChainNo) : (s.cancelIfSealing n).inqs = s.inqs := by
  unfold State.cancelIfSealing; split <;> simp
@[simp] theorem State.cancelIfSealing_notqs (s : State) (n : ChainNo) : (s.cancelIfSealing n).notqs = s.notqs := by
  unfold State.cancelIfSealing; split <;> simp
@[simp] theorem State.cancelIfSealing_divider (s : State) (n : ChainNo) : (s.cancelIfSealing n).divider = s.divider := by
  unfold State.cancelIfSealing; split <;> simp
@[simp] theorem State.cancelIfSealing_leases (s : State) (n : ChainNo) : (s.cancelIfSealing n).leases = s.leases := by
  unfold State.cancelIfSealing; split <;> simp
@[simp] theorem State.cancelIfSealing_claimLease (s : State) (n : ChainNo) : (s.cancelIfSealing n).claimLease = s.claimLease := by
  unfold State.cancelIfSealing; split <;> simp
@[simp] theorem State.cancelIfSealing_edges (s : State) (n : ChainNo) : (s.cancelIfSealing n).edges = s.edges := by
  unfold State.cancelIfSealing; split <;> simp
@[simp] theorem State.cancelIfSealing_enables (s : State) (n : ChainNo) : (s.cancelIfSealing n).enables = s.enables := by
  unfold State.cancelIfSealing; split <;> simp
@[simp] theorem State.cancelIfSealing_committed (s : State) (n : ChainNo) : (s.cancelIfSealing n).committed = s.committed := by
  unfold State.cancelIfSealing; split <;> simp
@[simp] theorem State.cancelIfSealing_claim (s : State) (n : ChainNo) : (s.cancelIfSealing n).claim = s.claim := by
  unfold State.cancelIfSealing; split <;> simp
@[simp] theorem State.cancelIfSealing_pius (s : State) (n : ChainNo) : (s.cancelIfSealing n).pius = s.pius := by
  unfold State.cancelIfSealing; split <;> simp
@[simp] theorem State.cancelIfSealing_pending (s : State) (n : ChainNo) : (s.cancelIfSealing n).pending = s.pending := by
  unfold State.cancelIfSealing; split <;> simp
@[simp] theorem State.cancelIfSealing_fresh (s : State) (n : ChainNo) : (s.cancelIfSealing n).fresh = s.fresh := by
  unfold State.cancelIfSealing; split <;> simp

/-! ### vacate -/

@[simp] theorem State.vacate_resetn (s : State) (n : ChainNo) : (s.vacate n).resetn = s.resetn := by
  simp [State.vacate]
@[simp] theorem State.vacate_ready (s : State) (n : ChainNo) : (s.vacate n).ready = s.ready := by
  simp [State.vacate]
@[simp] theorem State.vacate_store (s : State) (n : ChainNo) : (s.vacate n).store = s.store := by
  simp [State.vacate]
@[simp] theorem State.vacate_clearEng (s : State) (n : ChainNo) : (s.vacate n).clearEng = s.clearEng := by
  simp [State.vacate]
@[simp] theorem State.vacate_arbPos (s : State) (n : ChainNo) : (s.vacate n).arbPos = s.arbPos := by
  simp [State.vacate]
@[simp] theorem State.vacate_notqs (s : State) (n : ChainNo) : (s.vacate n).notqs = s.notqs := by
  simp [State.vacate]
@[simp] theorem State.vacate_divider (s : State) (n : ChainNo) : (s.vacate n).divider = s.divider := by
  simp [State.vacate]
@[simp] theorem State.vacate_claimLease (s : State) (n : ChainNo) : (s.vacate n).claimLease = s.claimLease := by
  simp [State.vacate]
@[simp] theorem State.vacate_edges (s : State) (n : ChainNo) : (s.vacate n).edges = s.edges := by
  simp [State.vacate]
@[simp] theorem State.vacate_enables (s : State) (n : ChainNo) : (s.vacate n).enables = s.enables := by
  simp [State.vacate]
@[simp] theorem State.vacate_committed (s : State) (n : ChainNo) : (s.vacate n).committed = s.committed := by
  simp [State.vacate]
@[simp] theorem State.vacate_claim (s : State) (n : ChainNo) : (s.vacate n).claim = s.claim := by
  simp [State.vacate]
@[simp] theorem State.vacate_pending (s : State) (n : ChainNo) : (s.vacate n).pending = s.pending := by
  simp [State.vacate]
@[simp] theorem State.vacate_fresh (s : State) (n : ChainNo) : (s.vacate n).fresh = s.fresh := by
  simp [State.vacate]

/-! ### endDelivery -/

@[simp] theorem State.endDelivery_resetn (s : State) (n : ChainNo) (d : Delivery) (t : Word) : (s.endDelivery n d t).resetn = s.resetn := by
  simp [State.endDelivery]
@[simp] theorem State.endDelivery_ready (s : State) (n : ChainNo) (d : Delivery) (t : Word) : (s.endDelivery n d t).ready = s.ready := by
  simp [State.endDelivery]
@[simp] theorem State.endDelivery_store (s : State) (n : ChainNo) (d : Delivery) (t : Word) : (s.endDelivery n d t).store = s.store := by
  simp [State.endDelivery]
@[simp] theorem State.endDelivery_clearEng (s : State) (n : ChainNo) (d : Delivery) (t : Word) : (s.endDelivery n d t).clearEng = s.clearEng := by
  simp [State.endDelivery]
@[simp] theorem State.endDelivery_arbPos (s : State) (n : ChainNo) (d : Delivery) (t : Word) : (s.endDelivery n d t).arbPos = s.arbPos := by
  simp [State.endDelivery]
@[simp] theorem State.endDelivery_divider (s : State) (n : ChainNo) (d : Delivery) (t : Word) : (s.endDelivery n d t).divider = s.divider := by
  simp [State.endDelivery]
@[simp] theorem State.endDelivery_claimLease (s : State) (n : ChainNo) (d : Delivery) (t : Word) : (s.endDelivery n d t).claimLease = s.claimLease := by
  simp [State.endDelivery]
@[simp] theorem State.endDelivery_enables (s : State) (n : ChainNo) (d : Delivery) (t : Word) : (s.endDelivery n d t).enables = s.enables := by
  simp [State.endDelivery]
@[simp] theorem State.endDelivery_committed (s : State) (n : ChainNo) (d : Delivery) (t : Word) : (s.endDelivery n d t).committed = s.committed := by
  simp [State.endDelivery]
@[simp] theorem State.endDelivery_claim (s : State) (n : ChainNo) (d : Delivery) (t : Word) : (s.endDelivery n d t).claim = s.claim := by
  simp [State.endDelivery]
@[simp] theorem State.endDelivery_pending (s : State) (n : ChainNo) (d : Delivery) (t : Word) : (s.endDelivery n d t).pending = s.pending := by
  simp [State.endDelivery]
@[simp] theorem State.endDelivery_fresh (s : State) (n : ChainNo) (d : Delivery) (t : Word) : (s.endDelivery n d t).fresh = s.fresh := by
  simp [State.endDelivery]

/-! ### depart -/

@[simp] theorem State.depart_resetn (s : State) (p : Port) (h : Departure) (n : ChainNo) : (s.depart p h n).resetn = s.resetn := by
  unfold State.depart; split
  · simp only []; split <;> simp
  all_goals rfl
@[simp] theorem State.depart_ready (s : State) (p : Port) (h : Departure) (n : ChainNo) : (s.depart p h n).ready = s.ready := by
  unfold State.depart; split
  · simp only []; split <;> simp
  all_goals rfl
@[simp] theorem State.depart_store (s : State) (p : Port) (h : Departure) (n : ChainNo) : (s.depart p h n).store = s.store := by
  unfold State.depart; split
  · simp only []; split <;> simp
  all_goals rfl
@[simp] theorem State.depart_clearEng (s : State) (p : Port) (h : Departure) (n : ChainNo) : (s.depart p h n).clearEng = s.clearEng := by
  unfold State.depart; split
  · simp only []; split <;> simp
  all_goals rfl
@[simp] theorem State.depart_arbPos (s : State) (p : Port) (h : Departure) (n : ChainNo) : (s.depart p h n).arbPos = s.arbPos := by
  unfold State.depart; split
  · simp only []; split <;> simp
  all_goals rfl
@[simp] theorem State.depart_divider (s : State) (p : Port) (h : Departure) (n : ChainNo) : (s.depart p h n).divider = s.divider := by
  unfold State.depart; split
  · simp only []; split <;> simp
  all_goals rfl
@[simp] theorem State.depart_claimLease (s : State) (p : Port) (h : Departure) (n : ChainNo) : (s.depart p h n).claimLease = s.claimLease := by
  unfold State.depart; split
  · simp only []; split <;> simp
  all_goals rfl
@[simp] theorem State.depart_enables (s : State) (p : Port) (h : Departure) (n : ChainNo) : (s.depart p h n).enables = s.enables := by
  unfold State.depart; split
  · simp only []; split <;> simp
  all_goals rfl
@[simp] theorem State.depart_committed (s : State) (p : Port) (h : Departure) (n : ChainNo) : (s.depart p h n).committed = s.committed := by
  unfold State.depart; split
  · simp only []; split <;> simp
  all_goals rfl
@[simp] theorem State.depart_claim (s : State) (p : Port) (h : Departure) (n : ChainNo) : (s.depart p h n).claim = s.claim := by
  unfold State.depart; split
  · simp only []; split <;> simp
  all_goals rfl
@[simp] theorem State.depart_pending (s : State) (p : Port) (h : Departure) (n : ChainNo) : (s.depart p h n).pending = s.pending := by
  unfold State.depart; split
  · simp only []; split <;> simp
  all_goals rfl
@[simp] theorem State.depart_fresh (s : State) (p : Port) (h : Departure) (n : ChainNo) : (s.depart p h n).fresh = s.fresh := by
  unfold State.depart; split
  · simp only []; split <;> simp
  all_goals rfl

/-! ### withdrawFrom -/

@[simp] theorem State.withdrawFrom_resetn (s : State) (p : Port) (n : ChainNo) : (State.withdrawFrom p s n).resetn = s.resetn := by
  unfold State.withdrawFrom; split <;> simp
@[simp] theorem State.withdrawFrom_ready (s : State) (p : Port) (n : ChainNo) : (State.withdrawFrom p s n).ready = s.ready := by
  unfold State.withdrawFrom; split <;> simp
@[simp] theorem State.withdrawFrom_store (s : State) (p : Port) (n : ChainNo) : (State.withdrawFrom p s n).store = s.store := by
  unfold State.withdrawFrom; split <;> simp
@[simp] theorem State.withdrawFrom_clearEng (s : State) (p : Port) (n : ChainNo) : (State.withdrawFrom p s n).clearEng = s.clearEng := by
  unfold State.withdrawFrom; split <;> simp
@[simp] theorem State.withdrawFrom_arbPos (s : State) (p : Port) (n : ChainNo) : (State.withdrawFrom p s n).arbPos = s.arbPos := by
  unfold State.withdrawFrom; split <;> simp
@[simp] theorem State.withdrawFrom_divider (s : State) (p : Port) (n : ChainNo) : (State.withdrawFrom p s n).divider = s.divider := by
  unfold State.withdrawFrom; split <;> simp
@[simp] theorem State.withdrawFrom_claimLease (s : State) (p : Port) (n : ChainNo) : (State.withdrawFrom p s n).claimLease = s.claimLease := by
  unfold State.withdrawFrom; split <;> simp
@[simp] theorem State.withdrawFrom_enables (s : State) (p : Port) (n : ChainNo) : (State.withdrawFrom p s n).enables = s.enables := by
  unfold State.withdrawFrom; split <;> simp
@[simp] theorem State.withdrawFrom_committed (s : State) (p : Port) (n : ChainNo) : (State.withdrawFrom p s n).committed = s.committed := by
  unfold State.withdrawFrom; split <;> simp
@[simp] theorem State.withdrawFrom_claim (s : State) (p : Port) (n : ChainNo) : (State.withdrawFrom p s n).claim = s.claim := by
  unfold State.withdrawFrom; split <;> simp
@[simp] theorem State.withdrawFrom_pending (s : State) (p : Port) (n : ChainNo) : (State.withdrawFrom p s n).pending = s.pending := by
  unfold State.withdrawFrom; split <;> simp
@[simp] theorem State.withdrawFrom_fresh (s : State) (p : Port) (n : ChainNo) : (State.withdrawFrom p s n).fresh = s.fresh := by
  unfold State.withdrawFrom; split <;> simp

/-! ### expiryNotices -/

/-- A run of notices to a list of ports changes what a notice changes. -/
theorem State.foldl_offer_keeps {α : Type} (f : State → α) (hf : ∀ (p : Port) (m : Notice) (t : State), f (t.offer p m) = f t)
    (l : List Port) (m : Port → Notice) (s : State) : f (l.foldl (fun t p => t.offer p (m p)) s) = f s := by
  induction l generalizing s with
  | nil => rfl
  | cons p l ih => rw [List.foldl_cons, ih, hf]

@[simp] theorem State.expiryNotices_resetn (s : State) (n : ChainNo) : (s.expiryNotices n).resetn = s.resetn := by
  unfold State.expiryNotices; simp only []; split
  · rfl
  all_goals try rfl
  rw [State.foldl_offer_keeps State.resetn (fun _ _ _ => rfl)]; rfl
@[simp] theorem State.expiryNotices_ready (s : State) (n : ChainNo) : (s.expiryNotices n).ready = s.ready := by
  unfold State.expiryNotices; simp only []; split
  · rfl
  all_goals try rfl
  rw [State.foldl_offer_keeps State.ready (fun _ _ _ => rfl)]; rfl
@[simp] theorem State.expiryNotices_store (s : State) (n : ChainNo) : (s.expiryNotices n).store = s.store := by
  unfold State.expiryNotices; simp only []; split
  · rfl
  all_goals try rfl
  rw [State.foldl_offer_keeps State.store (fun _ _ _ => rfl)]; rfl
@[simp] theorem State.expiryNotices_free (s : State) (n : ChainNo) : (s.expiryNotices n).free = s.free := by
  unfold State.expiryNotices; simp only []; split
  · rfl
  all_goals try rfl
  rw [State.foldl_offer_keeps State.free (fun _ _ _ => rfl)]; rfl
@[simp] theorem State.expiryNotices_clearQ (s : State) (n : ChainNo) : (s.expiryNotices n).clearQ = s.clearQ := by
  unfold State.expiryNotices; simp only []; split
  · rfl
  all_goals try rfl
  rw [State.foldl_offer_keeps State.clearQ (fun _ _ _ => rfl)]; rfl
@[simp] theorem State.expiryNotices_clearEng (s : State) (n : ChainNo) : (s.expiryNotices n).clearEng = s.clearEng := by
  unfold State.expiryNotices; simp only []; split
  · rfl
  all_goals try rfl
  rw [State.foldl_offer_keeps State.clearEng (fun _ _ _ => rfl)]; rfl
@[simp] theorem State.expiryNotices_watermark (s : State) (n : ChainNo) : (s.expiryNotices n).watermark = s.watermark := by
  unfold State.expiryNotices; simp only []; split
  · rfl
  all_goals try rfl
  rw [State.foldl_offer_keeps State.watermark (fun _ _ _ => rfl)]; rfl
@[simp] theorem State.expiryNotices_arbPos (s : State) (n : ChainNo) : (s.expiryNotices n).arbPos = s.arbPos := by
  unfold State.expiryNotices; simp only []; split
  · rfl
  all_goals try rfl
  rw [State.foldl_offer_keeps State.arbPos (fun _ _ _ => rfl)]; rfl
@[simp] theorem State.expiryNotices_recs (s : State) (n : ChainNo) : (s.expiryNotices n).recs = s.recs := by
  unfold State.expiryNotices; simp only []; split
  · rfl
  all_goals try rfl
  rw [State.foldl_offer_keeps State.recs (fun _ _ _ => rfl)]; rfl
@[simp] theorem State.expiryNotices_chBlocks (s : State) (n : ChainNo) : (s.expiryNotices n).chBlocks = s.chBlocks := by
  unfold State.expiryNotices; simp only []; split
  · rfl
  all_goals try rfl
  rw [State.foldl_offer_keeps State.chBlocks (fun _ _ _ => rfl)]; rfl
@[simp] theorem State.expiryNotices_chChains (s : State) (n : ChainNo) : (s.expiryNotices n).chChains = s.chChains := by
  unfold State.expiryNotices; simp only []; split
  · rfl
  all_goals try rfl
  rw [State.foldl_offer_keeps State.chChains (fun _ _ _ => rfl)]; rfl
@[simp] theorem State.expiryNotices_sealQ (s : State) (n : ChainNo) : (s.expiryNotices n).sealQ = s.sealQ := by
  unfold State.expiryNotices; simp only []; split
  · rfl
  all_goals try rfl
  rw [State.foldl_offer_keeps State.sealQ (fun _ _ _ => rfl)]; rfl
@[simp] theorem State.expiryNotices_sealEng (s : State) (n : ChainNo) : (s.expiryNotices n).sealEng = s.sealEng := by
  unfold State.expiryNotices; simp only []; split
  · rfl
  all_goals try rfl
  rw [State.foldl_offer_keeps State.sealEng (fun _ _ _ => rfl)]; rfl
@[simp] theorem State.expiryNotices_inqs (s : State) (n : ChainNo) : (s.expiryNotices n).inqs = s.inqs := by
  unfold State.expiryNotices; simp only []; split
  · rfl
  all_goals try rfl
  rw [State.foldl_offer_keeps State.inqs (fun _ _ _ => rfl)]; rfl
@[simp] theorem State.expiryNotices_divider (s : State) (n : ChainNo) : (s.expiryNotices n).divider = s.divider := by
  unfold State.expiryNotices; simp only []; split
  · rfl
  all_goals try rfl
  rw [State.foldl_offer_keeps State.divider (fun _ _ _ => rfl)]; rfl
@[simp] theorem State.expiryNotices_leases (s : State) (n : ChainNo) : (s.expiryNotices n).leases = s.leases := by
  unfold State.expiryNotices; simp only []; split
  · rfl
  all_goals try rfl
  rw [State.foldl_offer_keeps State.leases (fun _ _ _ => rfl)]; rfl
@[simp] theorem State.expiryNotices_claimLease (s : State) (n : ChainNo) : (s.expiryNotices n).claimLease = s.claimLease := by
  unfold State.expiryNotices; simp only []; split
  · rfl
  all_goals try rfl
  rw [State.foldl_offer_keeps State.claimLease (fun _ _ _ => rfl)]; rfl
@[simp] theorem State.expiryNotices_enables (s : State) (n : ChainNo) : (s.expiryNotices n).enables = s.enables := by
  unfold State.expiryNotices; simp only []; split
  · rfl
  all_goals try rfl
  rw [State.foldl_offer_keeps State.enables (fun _ _ _ => rfl)]; rfl
@[simp] theorem State.expiryNotices_committed (s : State) (n : ChainNo) : (s.expiryNotices n).committed = s.committed := by
  unfold State.expiryNotices; simp only []; split
  · rfl
  all_goals try rfl
  rw [State.foldl_offer_keeps State.committed (fun _ _ _ => rfl)]; rfl
@[simp] theorem State.expiryNotices_claim (s : State) (n : ChainNo) : (s.expiryNotices n).claim = s.claim := by
  unfold State.expiryNotices; simp only []; split
  · rfl
  all_goals try rfl
  rw [State.foldl_offer_keeps State.claim (fun _ _ _ => rfl)]; rfl
@[simp] theorem State.expiryNotices_pius (s : State) (n : ChainNo) : (s.expiryNotices n).pius = s.pius := by
  unfold State.expiryNotices; simp only []; split
  · rfl
  all_goals try rfl
  rw [State.foldl_offer_keeps State.pius (fun _ _ _ => rfl)]; rfl
@[simp] theorem State.expiryNotices_pending (s : State) (n : ChainNo) : (s.expiryNotices n).pending = s.pending := by
  unfold State.expiryNotices; simp only []; split
  · rfl
  all_goals try rfl
  rw [State.foldl_offer_keeps State.pending (fun _ _ _ => rfl)]; rfl
@[simp] theorem State.expiryNotices_fresh (s : State) (n : ChainNo) : (s.expiryNotices n).fresh = s.fresh := by
  unfold State.expiryNotices; simp only []; split
  · rfl
  all_goals try rfl
  rw [State.foldl_offer_keeps State.fresh (fun _ _ _ => rfl)]; rfl

/-! ### expire -/

@[simp] theorem State.expire_resetn (s : State) (n : ChainNo) : (s.expire n).resetn = s.resetn := by
  simp [State.expire]
@[simp] theorem State.expire_ready (s : State) (n : ChainNo) : (s.expire n).ready = s.ready := by
  simp [State.expire]
@[simp] theorem State.expire_store (s : State) (n : ChainNo) : (s.expire n).store = s.store := by
  simp [State.expire]
@[simp] theorem State.expire_clearEng (s : State) (n : ChainNo) : (s.expire n).clearEng = s.clearEng := by
  simp [State.expire]
@[simp] theorem State.expire_arbPos (s : State) (n : ChainNo) : (s.expire n).arbPos = s.arbPos := by
  simp [State.expire]
@[simp] theorem State.expire_divider (s : State) (n : ChainNo) : (s.expire n).divider = s.divider := by
  simp [State.expire]
@[simp] theorem State.expire_claimLease (s : State) (n : ChainNo) : (s.expire n).claimLease = s.claimLease := by
  simp [State.expire]
@[simp] theorem State.expire_enables (s : State) (n : ChainNo) : (s.expire n).enables = s.enables := by
  simp [State.expire]
@[simp] theorem State.expire_committed (s : State) (n : ChainNo) : (s.expire n).committed = s.committed := by
  simp [State.expire]
@[simp] theorem State.expire_claim (s : State) (n : ChainNo) : (s.expire n).claim = s.claim := by
  simp [State.expire]
@[simp] theorem State.expire_pending (s : State) (n : ChainNo) : (s.expire n).pending = s.pending := by
  simp [State.expire]
@[simp] theorem State.expire_fresh (s : State) (n : ChainNo) : (s.expire n).fresh = s.fresh := by
  simp [State.expire]

end Sys2Proof.Machine
end

