-- ==== Sys2Proof/Laws/Effects.lean ====
section
/-! SUPPORT. What the composite operations write: a vacate, a departure, a notice, the order and the records of a
withdrawal and the withdrawal whole, an allocation, a line of the Seal Engine. -/

namespace Sys2Proof.Machine

/-! ### Vacate (R9) -/

/-- The vacated record: VACANT under the next generation. -/
theorem State.vacate_recs (s : State) (n : ChainNo) :
    (s.vacate n).recs = s.recs.set n { gen := s.recs[n].gen + 1, life := .vacant, length := 0, blocks := [] } := by
  simp [State.vacate]

/-- The vacated record's lease is NONE. -/
theorem State.vacate_leases (s : State) (n : ChainNo) : (s.vacate n).leases = s.leases.set n .none := by
  simp [State.vacate]

/-- Every PIU whose stream is on the vacated chain ends it. -/
theorem State.vacate_pius (s : State) (n : ChainNo) :
    (s.vacate n).pius = s.pius.map (Piu.revoke ⟨n, s.recs[n].gen⟩) := by
  simp [State.vacate]

/-- Every entry for the vacated chain becomes void. -/
theorem State.vacate_inqs (s : State) (n : ChainNo) :
    (s.vacate n).inqs = s.inqs.map (InQueue.voidRef ⟨n, s.recs[n].gen⟩) := by
  simp [State.vacate]

/-- A PIU with no stream on the vacated chain keeps its state. -/
theorem Piu.revoke_of_not_streams {u : Piu} {r : ChainRef} (h : u.streams r = false) : u.revoke r = u := by
  simp [Piu.revoke, h]

@[simp] theorem Piu.revoke_link (u : Piu) (r : ChainRef) : (u.revoke r).link = u.link := rfl
@[simp] theorem Piu.revoke_result (u : Piu) (r : ChainRef) : (u.revoke r).result = u.result := rfl
@[simp] theorem Piu.revoke_sel (u : Piu) (r : ChainRef) : (u.revoke r).sel = u.sel := rfl
@[simp] theorem Piu.revoke_early (u : Piu) (r : ChainRef) : (u.revoke r).early = u.early := rfl

/-! ### Notices (R90) -/

/-- A notice to a disabled port is dropped. -/
theorem State.offer_disabled {s : State} {p : Port} (m : Notice) (h : s.isEnabled p = false) : s.offer p m = s := by
  simp [-Fin.getElem_fin, State.offer, State.admits, h, State.raise, set_get]

/-- A notice to a full queue is dropped and raises NOTICE_LOST. -/
theorem State.offer_full {s : State} {p : Port} (m : Notice) (h : s.isEnabled p = true) (hf : 8 ≤ s.notqs[p].length) :
    s.offer p m = { s with edges := s.edges.set p (s.edges[p] ||| 0x20) } := by
  have : ¬ s.notqs[p].length < 8 := by omega
  simp [-Fin.getElem_fin, State.offer, State.admits, h, this, State.raise, set_get]
  rfl

/-- A notice that finds room joins the tail. -/
theorem State.offer_room {s : State} {p : Port} (m : Notice) (h : s.isEnabled p = true) (hf : s.notqs[p].length < 8) :
    s.offer p m = { s with notqs := s.notqs.set p (s.notqs[p] ++ [m]) } := by
  simp [-Fin.getElem_fin, State.offer, State.admits, h, hf]

/-! ### The Store Arbiter (R27) -/

/-- The ring from after a position, round to the position, lists the requesters by rising distance. -/
theorem ringFrom_distance : ∀ a ∈ ring, (ringFrom a).map (ringDistance a) = [1, 2, 3, 4, 5, 6] := by
  decide

/-- Every requester stands in the ring. -/
theorem mem_ring (r : Requester) : r ∈ ring := by
  rcases r with p | _ | _
  · fin_cases p <;> simp [ring]
  · simp [ring]
  · simp [ring]

/-! ### Ordering by key -/

theorem insertByKey_perm {α : Type} (key : α → Nat) (x : α) (l : List α) : (insertByKey key x l).Perm (x :: l) := by
  induction l with
  | nil => exact .refl _
  | cons y l ih =>
    unfold insertByKey
    split
    · exact .refl _
    · exact (ih.cons y).trans (.swap x y l)

/-- The order by keys is a reordering: the same elements, each as often. -/
theorem orderBy_perm {α : Type} (key : α → Nat) (l : List α) : (orderBy key l).Perm l := by
  induction l with
  | nil => exact .refl _
  | cons x l ih => exact (insertByKey_perm key x _).trans (ih.cons x)

/-- The chains a withdrawal takes, each once: those the port owns or takes part in. -/
theorem State.withdrawOrder_mem (s : State) (p : Port) (n : ChainNo) :
    n ∈ s.withdrawOrder p ↔ s.recs[n].life.touches p = true := by
  unfold State.withdrawOrder
  rw [(orderBy_perm _ _).mem_iff]
  simp

theorem State.withdrawOrder_nodup (s : State) (p : Port) : (s.withdrawOrder p).Nodup := by
  unfold State.withdrawOrder
  rw [(orderBy_perm _ _).nodup_iff]
  exact (List.nodup_finRange 64).filter _

/-- The ports a commit withdraws, each once: those of the mask. -/
theorem State.portOrder_mem (s : State) (m : PortSet) (q : Port) : q ∈ s.portOrder m ↔ inSet m q = true := by
  unfold State.portOrder
  rw [(orderBy_perm _ _).mem_iff]
  have : q ∈ ports := by unfold ports; fin_cases q <;> simp
  simp [this]

theorem State.portOrder_nodup (s : State) (m : PortSet) : (s.portOrder m).Nodup := by
  unfold State.portOrder
  rw [(orderBy_perm _ _).nodup_iff]
  exact (show ports.Nodup by decide).filter _

/-! ### Departure (R78, R79) -/

/-- A departure from a record in which a participant stays: the sets and the tallies change. -/
theorem State.depart_stays {s : State} {n : ChainNo} {d : Delivery} {l : Label} {k : Word} {p : Port} {how : Departure}
    (h : s.recs[n].life = .delivering d l k) (hd : (d.leave p how).finished = false) :
    s.depart p how n = s.setRec n { s.recs[n] with life := .delivering (d.leave p how) l k } := by
  unfold State.depart
  simp only [h, hd]
  simp

/-- The last departure: CONSUMED to the origin, then the vacate. -/
theorem State.depart_last {s : State} {n : ChainNo} {d : Delivery} {l : Label} {k : Word} {p : Port} {how : Departure}
    (h : s.recs[n].life = .delivering d l k) (hd : (d.leave p how).finished = true) :
    s.depart p how n =
      (s.setRec n { s.recs[n] with life := .delivering (d.leave p how) l k }).endDelivery n (d.leave p how) l.tag := by
  unfold State.depart
  simp only [h, hd]
  simp

/-! ### One chain of a withdrawal (R146, R147) -/

/-- The record a withdrawal of port p leaves of one it reaches. -/
def ChainRec.withdrawn (p : Port) (r : ChainRec) : ChainRec :=
  match r.life with
  | .delivering d l k =>
    if (d.leave p .withdrawn).finished then { gen := r.gen + 1, life := .vacant, length := 0, blocks := [] }
    else { r with life := .delivering (d.leave p .withdrawn) l k }
  | .vacant | .opened _ _ | .sealing _ _ | .sealed _ _ _ =>
    if r.life.owner = some p then { gen := r.gen + 1, life := .vacant, length := 0, blocks := [] } else r

/-- The lease counter a withdrawal leaves of a record it reaches: NONE for one it vacates. -/
def Lease.withdrawn (p : Port) (r : ChainRec) (c : Lease) : Lease :=
  if (r.withdrawn p).gen = r.gen then c else .none

theorem gen_succ_ne (g : Gen) : g + 1 ≠ g := by
  revert g; decide

/-- One chain's turn in a withdrawal writes its own record and its own lease counter. -/
theorem State.withdrawFrom_record (p : Port) (s : State) (n : ChainNo) :
    (State.withdrawFrom p s n).recs = s.recs.set n (s.recs[n].withdrawn p) ∧
    (State.withdrawFrom p s n).leases = s.leases.set n (Lease.withdrawn p s.recs[n] s.leases[n]) := by
  unfold State.withdrawFrom
  split
  · next h =>
    have h' : s.recs[n].life.owner = some p := by simpa [-Fin.getElem_fin, Life.hasRole] using h
    have : s.recs[n].withdrawn p =
        { gen := s.recs[n].gen + 1, life := .vacant, length := 0, blocks := [] } := by
      unfold ChainRec.withdrawn
      split
      · next e => rw [e] at h'; simp [Life.owner] at h'
      all_goals simp [-Fin.getElem_fin, h']
    rw [Lease.withdrawn, this, State.vacate_recs, State.vacate_leases]
    simp
  · next h =>
    have h' : s.recs[n].life.owner ≠ some p := by simpa [-Fin.getElem_fin, Life.hasRole] using h
    rcases hl : s.recs[n].life with _ | ⟨o, l⟩ | ⟨o, l⟩ | ⟨o, l, k⟩ | ⟨d, l, k⟩
    case delivering =>
      cases hd : (d.leave p .withdrawn).finished
      · rw [State.depart_stays hl hd]
        simp [-Fin.getElem_fin, ChainRec.withdrawn, Lease.withdrawn, hl, hd, set_get]
      · rw [State.depart_last hl hd]
        simp [-Fin.getElem_fin, ChainRec.withdrawn, Lease.withdrawn, hl, hd, State.endDelivery, State.vacate_recs,
          State.vacate_leases, get_set]
    all_goals
      have e : s.depart p .withdrawn n = s := by unfold State.depart; simp only [hl]
      rw [hl] at h'
      simp [-Fin.getElem_fin, e, ChainRec.withdrawn, Lease.withdrawn, hl, h', set_get]

/-- All the chains of a withdrawal, in any order that takes each once. -/
theorem State.withdraw_records (p : Port) (l : List ChainNo) (hl : l.Nodup) (s : State) (n : ChainNo) :
    (l.foldl (State.withdrawFrom p) s).recs[n] = (if n ∈ l then s.recs[n].withdrawn p else s.recs[n]) ∧
    (l.foldl (State.withdrawFrom p) s).leases[n] =
      (if n ∈ l then Lease.withdrawn p s.recs[n] s.leases[n] else s.leases[n]) := by
  induction l generalizing s with
  | nil => simp
  | cons m l ih =>
    obtain ⟨hm, hl⟩ := List.nodup_cons.mp hl
    obtain ⟨e1, e2⟩ := ih hl (State.withdrawFrom p s m)
    obtain ⟨w1, w2⟩ := State.withdrawFrom_record p s m
    rw [List.foldl_cons, e1, e2, w1, w2]
    by_cases hn : m = n
    · subst hn
      simp [-Fin.getElem_fin, hm, get_set]
    · have hn' : ¬ n = m := fun e => hn e.symm
      simp [-Fin.getElem_fin, get_set, hn, hn']

/-- What one chain's turn keeps, a withdrawal's chains keep. -/
theorem State.withdraw_keeps {α : Type} (f : State → α) (p : Port) (h : ∀ s n, f (State.withdrawFrom p s n) = f s)
    (l : List ChainNo) (s : State) : f (l.foldl (State.withdrawFrom p) s) = f s := by
  induction l generalizing s with
  | nil => rfl
  | cons m l ih => rw [List.foldl_cons, ih, h]

/-- What a vacate keeps of a PIU, one chain's turn keeps. -/
theorem State.withdrawFrom_keeps {α : Type} (f : Piu → α) (p q : Port)
    (hf : ∀ (u : Piu) (r : ChainRef), f (u.revoke r) = f u) (s : State) (n : ChainNo) :
    f (State.withdrawFrom p s n).pius[q] = f s.pius[q] := by
  have hv : ∀ t : State, f (t.vacate n).pius[q] = f t.pius[q] := by
    intro t
    have : (t.vacate n).pius[q] = (t.pius[q]).revoke ⟨n, t.recs[n].gen⟩ := by rw [State.vacate_pius]; simp
    rw [this, hf]
  unfold State.withdrawFrom
  split
  · exact hv s
  · unfold State.depart
    split
    · simp only []
      split
      · unfold State.endDelivery; rw [hv]; simp [-Fin.getElem_fin]
      · simp [-Fin.getElem_fin]
    all_goals rfl

/-- A vacate neither starts a stream nor ends one, and keeps the outcome it has earned. -/
theorem Piu.revoke_earned (u : Piu) (r : ChainRef) :
    (u.revoke r).stream.map (·.earned) = u.stream.map (·.earned) := by
  unfold Piu.revoke
  cases u.stream with
  | none => simp
  | some st => simp only []; split <;> rfl

/-- One chain's turn leaves every PIU's link, pin, bits in transit and Result record as they were. -/
theorem State.withdrawFrom_piu (p : Port) (s : State) (n : ChainNo) (q : Port) :
    (State.withdrawFrom p s n).pius[q].link = s.pius[q].link ∧
    (State.withdrawFrom p s n).pius[q].result = s.pius[q].result ∧
    (State.withdrawFrom p s n).pius[q].sel = s.pius[q].sel ∧
    (State.withdrawFrom p s n).pius[q].early = s.pius[q].early ∧
    (State.withdrawFrom p s n).pius[q].wire = s.pius[q].wire :=
  ⟨State.withdrawFrom_keeps (·.link) p q (fun _ _ => rfl) s n,
   State.withdrawFrom_keeps (·.result) p q (fun _ _ => rfl) s n,
   State.withdrawFrom_keeps (·.sel) p q (fun _ _ => rfl) s n,
   State.withdrawFrom_keeps (·.early) p q (fun _ _ => rfl) s n,
   State.withdrawFrom_keeps (·.wire) p q (fun _ _ => rfl) s n⟩

/-! ### The withdrawal in the words of the statements (R145 to R150) -/

/-- One chain's turn in a withdrawal, spelled out by its record's state. -/
theorem State.withdrawFrom_eq (p : Port) (s : State) (n : ChainNo) :
    State.withdrawFrom p s n = State.withoutPort p s n := by
  rcases hl : s.recs[n].life with _ | ⟨o, l⟩ | ⟨o, l⟩ | ⟨o, l, k⟩ | ⟨d, l, k⟩ <;>
    simp only [State.withdrawFrom, State.withoutPort, State.depart, Life.hasRole, Life.owner, hl, beq_iff_eq,
      Option.some.injEq, reduceCtorEq, if_false]
  have hf : (d.leave p .withdrawn).finished = true ↔ (d.less p).pend = 0 ∧ (d.less p).hold = 0 := by
    unfold Delivery.finished; rw [Bool.and_eq_true]; exact and_congr decide_eq_true_iff decide_eq_true_iff
  by_cases h : (d.less p).pend = 0 ∧ (d.less p).hold = 0
  · rw [if_pos (hf.mpr h), if_pos h]
    simp [-Fin.getElem_fin, State.endDelivery, get_set, State.setRec, Delivery.leave, Delivery.consumed, Delivery.less, without]
  · rw [if_neg (fun e => h (hf.mp e)), if_neg h]
    simp [-Fin.getElem_fin, State.setRec, Delivery.leave, Delivery.less, without]

/-- What a withdrawal strips from its port, spelled out. -/
theorem State.stripPort_eq (p : Port) (res : ResultRec) (s : State) : s.stripPort p res = s.stripped p res := by
  have hl : s.pius[p].link.withdraw = (match s.pius[p].link with
      | .body c ops b => .body c ops (bodyWithout b)
      | .deselected => .deselected
      | .command => .command
      | .operand c ops => .operand c ops
      | .ignoring x => .ignoring x) := by
    rcases s.pius[p].link with _ | _ | _ | ⟨c, ops, b⟩ | _ <;> rfl
  have hs : s.pius[p].stream.filter (fun st => st.earned.isSome) = (match s.pius[p].stream with
      | some st => if st.earned = none then none else some st
      | none => none) := by
    rcases s.pius[p].stream with _ | st
    · rfl
    · cases h : st.earned <;> simp [Option.filter, h]
  unfold State.stripPort State.stripped Piu.withdraw
  rw [hl, hs]
  rcases s.claim with _ | cl
  · rfl
  · by_cases hp : cl.holder = p
    · subst hp
      simp only [Option.map_some, if_true]
      rfl
    · have : ¬ (Option.map (·.holder) (some cl) = some p) := fun e => hp (Option.some.inj e)
      simp only [if_neg this, if_neg hp]
      rfl

/-- A withdrawal: the chains' turns in their order, then the port stripped. -/
theorem State.withdraw_eq (p : Port) (res : ResultRec) (s : State) :
    s.withdraw p res = ((s.withdrawOrder p).foldl (State.withoutPort p) s).stripped p res := by
  unfold State.withdraw
  rw [State.stripPort_eq, show State.withdrawFrom p = State.withoutPort p from
    funext fun s => funext fun n => State.withdrawFrom_eq p s n]


end Sys2Proof.Machine
end

