-- ==== Sys2Proof/Laws/Link.lean ====
section
/-! SUPPORT. The course of a link command, moment by moment, and the four answers of the chain checks: what the proofs
cite in place of `linkBeat` and `chainCheck`. The register files are read as v[p] with p a Fin: simp is told to leave that
form alone (-Fin.getElem_fin), so that hypotheses about v[p] apply. -/

namespace Sys2Proof.Machine

/-! ### What the checks read -/

@[simp] theorem State.isEnabled_setPiu (s : State) (p q : Port) (u : Piu) : (s.setPiu p u).isEnabled q = s.isEnabled q := rfl
@[simp] theorem State.isEnabled_deselect (s : State) (p q : Port) : (s.deselect p).isEnabled q = s.isEnabled q := rfl
@[simp] theorem State.chainCheck_deselect (s : State) (c : Cmd) (p q : Port) (ops : List Byte) :
    (s.deselect p).chainCheck c q ops = s.chainCheck c q ops := rfl
@[simp] theorem State.disabledEnding_deselect (s : State) (p : Port) :
    (s.deselect p).disabledEnding = s.disabledEnding := rfl

/-! ### linkBeat -/

/-- A beat of a command is refused exactly where it is ill formed (log entry 24). -/
theorem linkBeat_refused {c : Cmd} {p : Port} {b : Beat} {enter : List Byte → State → State}
    {close : List Byte → Body → State → State} {s : State} {r : Refusal} :
    linkBeat c p b enter close s = .refused r ↔ beatOk c b = false ∧ r = .illFormed := by
  unfold linkBeat
  cases hb : beatOk c b
  · simp [eq_comm]
  · simp only [Bool.not_true, Bool.false_eq_true, if_false, reduceCtorEq, false_and, iff_false]
    unfold codeWhole operandWhole ignoredBeat
    repeat' (first | (intro h; cases h) | split)

/-- At a port that is not selected nothing happens. -/
theorem linkBeat_deselected {c : Cmd} {p : Port} {s : State} {b : Beat} (h : s.pius[p].sel = false)
    (hb : beatOk c b = true) (enter : List Byte → State → State) (close : List Byte → Body → State → State) :
    linkBeat c p b enter close s = .next s := by
  simp [-Fin.getElem_fin, linkBeat, h, hb]

/-- The command byte: a command without operands enters BODY, any other waits for its operands. -/
theorem linkBeat_code {c : Cmd} {p : Port} {s : State} (h : AtCommand s p) (enter : List Byte → State → State)
    (close : List Byte → Body → State → State) :
    linkBeat c p .code enter close s =
      if c.operandCount = 0 then .next (enter [] s) else .next (s.setLink p (.operand c [])) := by
  obtain ⟨h1, h2, h3, h4, h5⟩ := h
  simp [-Fin.getElem_fin, linkBeat, beatOk, codeWhole, State.midByte, h1, h2, h3, h4, h5]

/-- An operand byte: gathered, or the last one. -/
theorem linkBeat_operand {c : Cmd} {p : Port} {s : State} {ops : List Byte} (x : Byte) (h : AtOperand s p c ops)
    (hc : 0 < c.operandCount) (enter : List Byte → State → State) (close : List Byte → Body → State → State) :
    linkBeat c p (.operand x) enter close s =
      if ops.length + 1 < c.operandCount then .next (s.setLink p (.operand c (ops ++ [x])))
      else .next (enter (ops ++ [x]) s) := by
  obtain ⟨h1, h2, h3⟩ := h
  simp [-Fin.getElem_fin, linkBeat, beatOk, operandWhole, State.midByte, h1, h2, h3, hc]

/-- A further byte in BODY. -/
theorem linkBeat_pass {c : Cmd} {p : Port} {s : State} {ops : List Byte} {b : Body} (h : InBody s p c ops b)
    (hb : AtByte s p) (hc : beatOk c .pass = true) (enter : List Byte → State → State) (close : List Byte → Body → State → State) :
    linkBeat c p .pass enter close s = .next (s.setLink p (.body c ops b.pass)) := by
  obtain ⟨h1, h2⟩ := h
  simp [-Fin.getElem_fin, linkBeat, State.midByte, hb, hc, h1, h2]

/-- Select rise in BODY. -/
theorem linkBeat_rise {c : Cmd} {p : Port} {s : State} {ops : List Byte} {b : Body} (h : InBody s p c ops b)
    (hc : c.cls ≠ .stream) (enter : List Byte → State → State) (close : List Byte → Body → State → State) :
    linkBeat c p .rise enter close s = .next (bodyRise c p ops b close s) := by
  obtain ⟨h1, h2⟩ := h
  simp [-Fin.getElem_fin, linkBeat, beatOk, hc, h1, h2]

/-! ### Rows and bytes -/

/-- The row of command c runs the meaning that a byte of its transaction runs. -/
theorem exec_row (c : Cmd) (p : Port) (b : Beat) (s : State) : exec (row c p b) s = commandBeat c p b s := by
  cases c <;> rfl

/-- A byte in BODY is the event of its row. -/
theorem exec_bodyByte {s : State} {p : Port} {c : Cmd} {ops : List Byte} {b : Body} (h : s.pius[p].link = .body c ops b)
    (x : Byte) : exec (s.rowOf p x) s = bodyByte c p x s := by
  unfold State.rowOf
  rw [h]
  cases c
  case readData =>
    dsimp only
    by_cases hs : (s.pius[p].stream.bind (·.shift)).isSome = true
    · rw [if_pos hs]
      simp [-Fin.getElem_fin, bodyByte, exec, hs]
    · rw [if_neg hs]
      simp [-Fin.getElem_fin, bodyByte, commandBeat, exec, hs]
  all_goals rfl

/-- The byte that becomes whole at a selected port is the event of the row that `rowOf` names. -/
theorem exec_rowOf {s : State} {p : Port} (h : s.pius[p].link ≠ .deselected) (x : Byte) :
    exec (s.rowOf p x) s = byteWhole p x s := by
  rcases hl : s.pius[p].link with _ | _ | ⟨c, ops⟩ | ⟨c, ops, b⟩ | y
  · exact absurd hl h
  · unfold State.rowOf byteWhole
    rw [hl]
    dsimp only
    cases hc : Cmd.ofCode x
    · simp [exec]
    · simp [exec_row]
  · unfold State.rowOf byteWhole
    rw [hl]
    exact exec_row _ _ _ _
  · rw [exec_bodyByte hl]
    unfold byteWhole
    rw [hl]
  · unfold State.rowOf byteWhole
    rw [hl]
    rfl

/-! ### The classes -/

/-- An action at its select rise, from an enabled port. -/
theorem actionBeat_rise {c : Cmd} {p : Port} {s : State} {ops : List Byte} (h : Waits s p c ops) (hc : c.cls ≠ .stream)
    (act : List Byte → State → State) : actionBeat c p .rise act s = .next (act ops (s.deselect p)) := by
  simp [-Fin.getElem_fin, actionBeat, linkBeat_rise h.1 hc, bodyRise, h.2]

/-- An action at its select rise, from a disabled port. -/
theorem actionBeat_disabled {c : Cmd} {p : Port} {s : State} {ops : List Byte} (h : InBody s p c ops .await)
    (hd : s.isEnabled p = false) (hc : c.cls ≠ .stream) (act : List Byte → State → State) :
    actionBeat c p .rise act s = .next (s.answers p c.code s.disabledEnding) := by
  simp [-Fin.getElem_fin, actionBeat, linkBeat_rise h hc, bodyRise, hd, State.deselect_record]

/-- An action with an outcome, from an enabled port. -/
theorem recordedBeat_rise {c : Cmd} {p : Port} {s : State} {ops : List Byte} (h : Waits s p c ops)
    (hc : c.cls ≠ .stream) (act : List Byte → State → State × Ending) :
    recordedBeat c p .rise act s =
      .next ((act ops (s.deselect p)).1.record p c.code (act ops (s.deselect p)).2) := by
  simp [-Fin.getElem_fin, recordedBeat, actionBeat_rise h hc]

/-- An action on a chain whose checks pass. -/
theorem chainBeat_ok {c : Cmd} {p : Port} {s : State} {ops : List Byte} {n : ChainNo} (h : Waits s p c ops)
    (hc : c.cls ≠ .stream) (hn : s.chainCheck c p ops = .ok n)
    (act : ChainNo → List Byte → State → State × Ending) :
    chainBeat c p .rise act s =
      .next ((act n ops (s.deselect p)).1.record p c.code (act n ops (s.deselect p)).2) := by
  simp [-Fin.getElem_fin, chainBeat, recordedBeat_rise h hc, hn]

/-- An action on a chain whose checks refuse it. -/
theorem chainBeat_error {c : Cmd} {p : Port} {s : State} {ops : List Byte} {e : Ending} (h : Waits s p c ops)
    (hc : c.cls ≠ .stream) (hn : s.chainCheck c p ops = .error e)
    (act : ChainNo → List Byte → State → State × Ending) :
    chainBeat c p .rise act s = .next (s.answers p c.code e) := by
  simp [-Fin.getElem_fin, chainBeat, recordedBeat_rise h hc, hn, State.deselect_record]

/-! ### The chain reference -/

/-- A reference in range names its record. -/
theorem parseRef_some {nb gb : Byte} {n : ChainNo} {g : Gen} (hn : nb.toNat = n.val) (hg : gb.toNat = g.toNat) :
    parseRef nb gb = some ⟨n, g⟩ := by
  have h1 : nb.toNat < 64 ∧ gb.toNat < 16 := ⟨by omega, by have := g.isLt; omega⟩
  have h2 : gb.setWidth 4 = g := by
    apply BitVec.eq_of_toNat_eq
    have := g.isLt
    simp [BitVec.toNat_setWidth, hg]
    omega
  simp [parseRef, h1, h2, hn]

/-- A reference out of range names none. -/
theorem parseRef_none {nb gb : Byte} (h : 64 ≤ nb.toNat ∨ 16 ≤ gb.toNat) : parseRef nb gb = none := by
  have : ¬(nb.toNat < 64 ∧ gb.toNat < 16) := by omega
  simp [parseRef, this]

/-! ### The chain checks -/

/-- The commands that name a chain, streams and actions. -/
def chainCommands : List Cmd := [.appendData, .rewriteData, .readData] ++ chainActions

/-- The rows of R12's table whose role the port holds are none exactly when the port holds no role they name. -/
theorem roleRows_none {c : Cmd} (hc : c ∈ chainCommands) (l : Life) (p : Port) :
    ((roleRows c).filter (fun row => l.hasRole p row.1)).isEmpty = !holdsRole c l p := by
  simp only [chainCommands, chainActions, List.cons_append, List.nil_append, List.mem_cons, List.not_mem_nil,
    or_false] at hc
  rcases hc with rfl | rfl | rfl | rfl | rfl | rfl | rfl | rfl | rfl | rfl | rfl | rfl <;>
    cases h1 : l.hasRole p .owner <;> cases h2 : l.hasRole p .holder <;> cases h3 : l.hasRole p .origin <;>
    cases h4 : l.hasRole p .pending <;> simp [roleRows, holdsRole, h1, h2, h3, h4]

/-- An owner's command is accepted in the states that R12 gives it. -/
theorem roleRows_owner {c : Cmd} (hc : c ∈ chainCommands) (l : Life) (p : Port) (ho : l.owner = some p) :
    ((roleRows c).filter (fun row => l.hasRole p row.1)).any (fun row => row.2.contains l.phase) =
      decide (l.phase ∈ ownerStates c) := by
  simp only [chainCommands, chainActions, List.cons_append, List.nil_append, List.mem_cons, List.not_mem_nil,
    or_false] at hc
  cases l <;> simp only [Life.owner, Option.some.injEq, reduceCtorEq] at ho <;>
    rcases hc with rfl | rfl | rfl | rfl | rfl | rfl | rfl | rfl | rfl | rfl | rfl | rfl <;>
    simp [roleRows, ownerStates, Life.hasRole, Life.owner, Life.delivery, Life.phase, ho]

/-- A destination's or an origin's command is accepted whenever it names the role. -/
theorem roleRows_delivering {c : Cmd} (hc : c ∈ chainCommands) (d : Delivery) (l : Label) (k : Word) (p : Port)
    (hr : holdsRole c (.delivering d l k) p = true) :
    ((roleRows c).filter (fun row => (Life.delivering d l k).hasRole p row.1)).any
      (fun row => row.2.contains (Life.delivering d l k).phase) = true := by
  simp only [chainCommands, chainActions, List.cons_append, List.nil_append, List.mem_cons, List.not_mem_nil,
    or_false] at hc
  rcases hc with rfl | rfl | rfl | rfl | rfl | rfl | rfl | rfl | rfl | rfl | rfl | rfl <;>
    simp [roleRows, holdsRole, Life.hasRole, Life.owner, Life.delivery, Life.phase] at hr ⊢ <;> tauto

/-- Check 1 of R11. -/
theorem chainCheck_range {s : State} {c : Cmd} {p : Port} {nb gb : Byte} {rest : List Byte}
    (h : 64 ≤ nb.toNat ∨ 16 ≤ gb.toNat) : s.chainCheck c p (nb :: gb :: rest) = .error ⟨.range, 0, 0⟩ := by
  simp [State.chainCheck, opByte, parseRef_none h]

/-- The reference in two operand bytes that are in range. -/
theorem parseRef_range {nb gb : Byte} {n : ChainNo} (hn : nb.toNat = n.val) (hg : gb.toNat < 16) :
    ∃ g : Gen, gb.toNat = g.toNat ∧ parseRef nb gb = some ⟨n, g⟩ := by
  have : gb.toNat = (BitVec.ofNat 4 gb.toNat).toNat := by simp; omega
  exact ⟨_, this, parseRef_some hn this⟩

/-- Check 2 of R11. -/
theorem chainCheck_stale {s : State} {c : Cmd} {p : Port} {nb gb : Byte} {rest : List Byte} {n : ChainNo}
    (hn : nb.toNat = n.val) (hg : gb.toNat < 16)
    (h : s.recs[n].life = .vacant ∨ s.recs[n].gen.toNat ≠ gb.toNat) :
    s.chainCheck c p (nb :: gb :: rest) =
      .error ⟨.stale, s.recs[n].gen.setWidth 16, w16 s.recs[n].life.phase.code⟩ := by
  obtain ⟨g, hg1, hg2⟩ := parseRef_range hn hg
  have : s.recs[n].life.phase = .vacant ∨ s.recs[n].gen ≠ g := by
    rcases h with h | h
    · left; rw [h]; rfl
    · right; intro e; exact h (by rw [e, hg1])
  simp only [State.chainCheck, opByte, List.getD_cons_zero, List.getD_cons_succ, hg2]
  rw [if_pos (by simpa using this)]
  rfl

theorem phase_vacant {l : Life} : l.phase = .vacant ↔ l = .vacant := by cases l <;> simp [Life.phase]

/-- R12 refuses a port without a role the command names. -/
theorem chainCheck_notYours {s : State} {c : Cmd} {p : Port} {nb gb : Byte} {rest : List Byte} {n : ChainNo}
    (hc : c ∈ chainCommands) (h : Names s nb gb n) (hr : holdsRole c s.recs[n].life p = false) :
    s.chainCheck c p (nb :: gb :: rest) = .error ⟨.notYours, w16 s.recs[n].life.phase.code, 0⟩ := by
  obtain ⟨h1, h2, h3⟩ := h
  simp only [State.chainCheck, opByte, List.getD_cons_zero, List.getD_cons_succ, parseRef_some h1 h2]
  rw [if_neg (by simp [-Fin.getElem_fin, phase_vacant, h3]), if_pos (by rw [roleRows_none hc, hr]; rfl)]
  rfl

/-- R12 refuses an owner in another state than the command's. -/
theorem chainCheck_wrongState {s : State} {c : Cmd} {p : Port} {nb gb : Byte} {rest : List Byte} {n : ChainNo}
    (hc : c ∈ chainCommands) (h : Names s nb gb n) (hr : holdsRole c s.recs[n].life p = true)
    (ho : s.recs[n].life.owner = some p) (hs : s.recs[n].life.phase ∉ ownerStates c) :
    s.chainCheck c p (nb :: gb :: rest) = .error ⟨.wrongState, w16 s.recs[n].life.phase.code, 0⟩ := by
  obtain ⟨h1, h2, h3⟩ := h
  simp only [State.chainCheck, opByte, List.getD_cons_zero, List.getD_cons_succ, parseRef_some h1 h2]
  rw [if_neg (by simp [-Fin.getElem_fin, phase_vacant, h3]), if_neg (by rw [roleRows_none hc, hr]; simp),
    if_neg (by rw [roleRows_owner hc _ _ ho]; simpa using hs)]
  rfl

/-- R12 accepts an owner in the command's states. -/
theorem chainCheck_owner {s : State} {c : Cmd} {p : Port} {nb gb : Byte} {rest : List Byte} {n : ChainNo}
    (hc : c ∈ chainCommands) (h : Names s nb gb n) (hr : holdsRole c s.recs[n].life p = true)
    (ho : s.recs[n].life.owner = some p) (hs : s.recs[n].life.phase ∈ ownerStates c) :
    s.chainCheck c p (nb :: gb :: rest) = .ok n := by
  obtain ⟨h1, h2, h3⟩ := h
  simp only [State.chainCheck, opByte, List.getD_cons_zero, List.getD_cons_succ, parseRef_some h1 h2]
  rw [if_neg (by simp [-Fin.getElem_fin, phase_vacant, h3]), if_neg (by rw [roleRows_none hc, hr]; simp),
    if_pos (by rw [roleRows_owner hc _ _ ho]; simpa using hs)]

/-- R12 accepts the roles of a delivery in DELIVERING. -/
theorem chainCheck_delivering {s : State} {c : Cmd} {p : Port} {nb gb : Byte} {rest : List Byte} {n : ChainNo}
    {d : Delivery} {l : Label} {k : Word} (hc : c ∈ chainCommands) (h : Names s nb gb n)
    (hd : s.recs[n].life = .delivering d l k) (hr : holdsRole c s.recs[n].life p = true) :
    s.chainCheck c p (nb :: gb :: rest) = .ok n := by
  obtain ⟨h1, h2, h3⟩ := h
  simp only [State.chainCheck, opByte, List.getD_cons_zero, List.getD_cons_succ, parseRef_some h1 h2]
  rw [if_neg (by simp [-Fin.getElem_fin, phase_vacant, h3]), if_neg (by rw [roleRows_none hc, hr]; simp)]
  rw [hd] at hr ⊢
  rw [if_pos (roleRows_delivering hc d l k p hr)]

/-- What accepted means: the record named, its generation, not VACANT, and the role. -/
theorem chainCheck_ok_iff {s : State} {c : Cmd} {p : Port} {ops : List Byte} {n : ChainNo}
    (h : s.chainCheck c p ops = .ok n) :
    (opByte ops 0).toNat = n.val ∧ (opByte ops 1).toNat = s.recs[n].gen.toNat ∧ s.recs[n].life ≠ .vacant ∧
    ∃ row ∈ roleRows c, s.recs[n].life.hasRole p row.1 = true ∧ s.recs[n].life.phase ∈ row.2 := by
  unfold State.chainCheck at h
  split at h
  · simp at h
  · rename_i ref hp
    unfold parseRef at hp
    split at hp
    · rename_i hr
      simp only [Option.some.injEq] at hp
      subst hp
      dsimp only at h
      split at h
      · simp at h
      · rename_i hv
        split at h
        · simp at h
        · split at h
          · rename_i ha
            simp only [Except.ok.injEq] at h
            subst h
            simp only [Bool.or_eq_true, decide_eq_true_eq, not_or, ne_eq, Decidable.not_not] at hv
            refine ⟨rfl, ?_, ?_, ?_⟩
            · rw [hv.2]; simp; omega
            · intro e; exact hv.1 (by rw [e]; rfl)
            · simp only [List.any_eq_true, List.mem_filter] at ha
              obtain ⟨row, ⟨h1, h2⟩, h3⟩ := ha
              exact ⟨row, h1, h2, by simpa using h3⟩
          · simp at h
    · simp at hp

end Sys2Proof.Machine
end

