-- ==== Sys2Proof/Laws/Memory.lean ====
section
/-! SUPPORT. The store array: every operation keeps the canonical form of its list, and what a byte reads after a write. -/

namespace Sys2Proof.Machine

/-- The form of a list whose first entry is known: the entry is no 00h, the next address is higher, the rest is in
form. -/
theorem Memory.wf_cons (a : Nat) (b : Byte) (m : Memory) :
    Memory.wf ((a, b) :: m) = true ↔ b ≠ 0 ∧ (∀ c ∈ m.head?, a < c.1) ∧ Memory.wf m = true := by
  cases m with
  | nil => simp [Memory.wf]
  | cons c m => simp [Memory.wf]; tauto

/-- The first address after a write is the one written or the one that was first. -/
theorem Memory.head_write (m : Memory) (x : Nat) (v : Byte) (a : Nat) (hx : a < x)
    (hm : ∀ c ∈ m.head?, a < c.1) (hwf : Memory.wf m = true) : ∀ c ∈ (Memory.write m x v).head?, a < c.1 := by
  cases m with
  | nil =>
    unfold Memory.write
    split <;> simp_all
  | cons c m =>
    obtain ⟨a', b'⟩ := c
    have h := (Memory.wf_cons a' b' m).1 hwf
    unfold Memory.write
    split
    · split <;> simp_all
    · split
      · split
        · intro c hc
          have := h.2.1 c hc
          have := hm (a', b') rfl
          simp_all
          omega
        · simp_all
      · simp_all

/-- A write keeps the canonical form. -/
theorem Memory.wf_write (m : Memory) (x : Nat) (v : Byte) (h : Memory.wf m = true) :
    Memory.wf (Memory.write m x v) = true := by
  induction m with
  | nil => unfold Memory.write; split <;> simp_all [Memory.wf]
  | cons c m ih =>
    obtain ⟨a, b⟩ := c
    have hw := (Memory.wf_cons a b m).1 h
    unfold Memory.write
    split
    · split
      · exact h
      · rename_i hx hv
        exact (Memory.wf_cons _ _ _).2 ⟨hv, by simpa using hx, h⟩
    · split
      · split
        · exact hw.2.2
        · rename_i h1 h2 hv
          subst h2
          exact (Memory.wf_cons _ _ _).2 ⟨hv, hw.2.1, hw.2.2⟩
      · rename_i h1 h2
        refine (Memory.wf_cons _ _ _).2 ⟨hw.1, ?_, ih hw.2.2⟩
        exact Memory.head_write m x v a (by omega) hw.2.1 hw.2.2

/-- Writing a line's placed bytes keeps the canonical form. -/
theorem Memory.wf_writeCells (m : Memory) (base : Nat) (cs : List (Option Byte)) (h : Memory.wf m = true) :
    Memory.wf (Memory.writeCells m base cs) = true := by
  induction cs generalizing m base with
  | nil => exact h
  | cons c cs ih =>
    cases c with
    | none => exact ih m (base + 1) h
    | some b => exact ih _ (base + 1) (Memory.wf_write m base b h)

/-- The empty list has the canonical form. -/
theorem Memory.wf_nil : Memory.wf [] = true := rfl

/-- An address below every listed one reads 00h. -/
theorem Memory.read_below (m : Memory) (x : Nat) (h : Memory.wf m = true) (hx : ∀ c ∈ m.head?, x < c.1) :
    Memory.read m x = 0 := by
  induction m with
  | nil => rfl
  | cons c m ih =>
    obtain ⟨a, b⟩ := c
    have hw := (Memory.wf_cons a b m).1 h
    have ha : x < a := by simpa using hx
    have : x ≠ a := by omega
    simp only [Memory.read, this, if_false]
    exact ih hw.2.2 (fun c hc => by have := hw.2.1 c hc; omega)

/-- A byte written reads back; every other byte keeps its value. -/
theorem Memory.read_write (m : Memory) (x : Nat) (v : Byte) (y : Nat) (h : Memory.wf m = true) :
    Memory.read (Memory.write m x v) y = if y = x then v else Memory.read m y := by
  induction m with
  | nil =>
    unfold Memory.write
    by_cases hv : v = 0
    · rw [if_pos hv, hv]; simp [Memory.read]
    · rw [if_neg hv]; simp [Memory.read]
  | cons c m ih =>
    obtain ⟨a, b⟩ := c
    have hw := (Memory.wf_cons a b m).1 h
    unfold Memory.write
    split
    · rename_i hx
      split
      · rename_i hv
        split
        · rename_i hy
          subst hy
          rw [Memory.read_below _ _ h (by simpa using hx), hv]
        · rfl
      · simp only [Memory.read]
    · split
      · rename_i h1 h2
        subst h2
        split
        · rename_i hv
          by_cases hy : y = x
          · subst hy
            simp only [if_true]
            rw [Memory.read_below m y hw.2.2 (by simpa using hw.2.1), hv]
          · simp [Memory.read, hy]
        · by_cases hy : y = x <;> simp [Memory.read, hy]
      · rename_i h1 h2
        simp only [Memory.read, ih hw.2.2]
        by_cases hy : y = a
        · have : y ≠ x := by omega
          simp [hy]
          omega
        · simp [hy]

/-- What a byte reads after a line's placed bytes are written: the byte placed at it, or what it read before. -/
theorem Memory.read_writeCells (m : Memory) (base : Nat) (cs : List (Option Byte)) (y : Nat)
    (h : Memory.wf m = true) :
    Memory.read (Memory.writeCells m base cs) y =
      if base ≤ y then ((cs[y - base]?).join).getD (Memory.read m y) else Memory.read m y := by
  induction cs generalizing m base with
  | nil => simp [Memory.writeCells]
  | cons c cs ih =>
    have hcons : ∀ k, (c :: cs)[k + 1]? = cs[k]? := fun k => by simp
    cases c with
    | none =>
      simp only [Memory.writeCells, ih m (base + 1) h]
      by_cases h1 : base ≤ y
      · by_cases h2 : base = y
        · subst h2; simp
        · have h3 : base + 1 ≤ y := by omega
          obtain ⟨k, rfl⟩ : ∃ k, y = base + 1 + k := ⟨y - (base + 1), by omega⟩
          have e1 : base + 1 + k - base = k + 1 := by omega
          have e2 : base + 1 + k - (base + 1) = k := by omega
          rw [if_pos h3, if_pos h1, e1, e2, hcons]
      · rw [if_neg h1, if_neg (by omega)]
    | some b =>
      simp only [Memory.writeCells, ih _ (base + 1) (Memory.wf_write m base b h), Memory.read_write m base b y h]
      by_cases h1 : base ≤ y
      · by_cases h2 : base = y
        · subst h2; simp
        · have h3 : base + 1 ≤ y := by omega
          obtain ⟨k, rfl⟩ : ∃ k, y = base + 1 + k := ⟨y - (base + 1), by omega⟩
          have e1 : base + 1 + k - base = k + 1 := by omega
          have e2 : base + 1 + k - (base + 1) = k := by omega
          have e3 : base + 1 + k ≠ base := by omega
          rw [if_pos h3, if_pos h1, e1, e2, hcons, if_neg e3]
      · rw [if_neg h1, if_neg (by omega), if_neg (by omega)]

/-- A filled line holds the bytes of the array. -/
theorem Memory.readLine_get (m : Memory) (base : Nat) (i : Fin 16) :
    (Memory.readLine m base)[i] = some (Memory.read m (base + i.val)) := by
  simp [Memory.readLine]

end Sys2Proof.Machine
end

