-- ==== Sys2Proof/Laws/PerInstr.lean ====
section
/-! SUPPORT. For each constructor: a term that is ill formed is an event on a port's link. -/

namespace Sys2Proof.Laws.LinkPort

open Sys2Proof.Machine

/-- An ill-formed term belongs to the link of a port. -/
def Statement (i : Instr) : Prop := i.wellFormed = false → (portOf i).isSome = true

theorem powerOn : Statement .powerOn :=
  fun h => nomatch h
theorem resetnAssertion : Statement .resetnAssertion :=
  fun h => nomatch h
theorem resetnRelease : Statement .resetnRelease :=
  fun h => nomatch h
theorem initializationComplete : Statement .initializationComplete :=
  fun h => nomatch h
theorem selectFall (w : PortEdge) : Statement (.selectFall w) :=
  fun _ => rfl
theorem framing (p : Port) (bits : Fin 8) : Statement (.framing p bits) :=
  fun _ => rfl
theorem unknownCommand (p : Port) (b : UnknownBeat) : Statement (.unknownCommand p b) :=
  fun _ => rfl
theorem readResult (p : Port) (b : Beat) : Statement (.readResult p b) :=
  fun _ => rfl
theorem readAttention (p : Port) (b : Beat) : Statement (.readAttention p b) :=
  fun _ => rfl
theorem readQueueStatus (p : Port) (b : Beat) : Statement (.readQueueStatus p b) :=
  fun _ => rfl
theorem readFreeStatus (p : Port) (b : Beat) : Statement (.readFreeStatus p b) :=
  fun _ => rfl
theorem readChainInfo (p : Port) (b : Beat) : Statement (.readChainInfo p b) :=
  fun _ => rfl
theorem readSettings (p : Port) (b : Beat) : Statement (.readSettings p b) :=
  fun _ => rfl
theorem identify (p : Port) (b : Beat) : Statement (.identify p b) :=
  fun _ => rfl
theorem openChain (p : Port) (b : Beat) : Statement (.openChain p b) :=
  fun _ => rfl
theorem appendData (p : Port) (b : Beat) : Statement (.appendData p b) :=
  fun _ => rfl
theorem appendDataByte (p : Port) (x : Byte) : Statement (.appendDataByte p x) :=
  fun _ => rfl
theorem rewriteData (p : Port) (b : Beat) : Statement (.rewriteData p b) :=
  fun _ => rfl
theorem rewriteDataByte (p : Port) (x : Byte) : Statement (.rewriteDataByte p x) :=
  fun _ => rfl
theorem readData (p : Port) (b : Beat) : Statement (.readData p b) :=
  fun _ => rfl
theorem readDataByte (p : Port) : Statement (.readDataByte p) :=
  fun _ => rfl
theorem stagingLineWrite (p : Port) : Statement (.stagingLineWrite p) :=
  fun h => nomatch h
theorem stagingLineFill (p : Port) : Statement (.stagingLineFill p) :=
  fun h => nomatch h
theorem streamClose (p : Port) (b : CloseBeat) : Statement (.streamClose p b) :=
  fun _ => rfl
theorem extendChain (p : Port) (b : Beat) : Statement (.extendChain p b) :=
  fun _ => rfl
theorem sealChain (p : Port) (b : Beat) : Statement (.sealChain p b) :=
  fun _ => rfl
theorem sealLineRead : Statement .sealLineRead :=
  fun h => nomatch h
theorem sealCompletion : Statement .sealCompletion :=
  fun h => nomatch h
theorem unsealChain (p : Port) (b : Beat) : Statement (.unsealChain p b) :=
  fun _ => rfl
theorem discardChain (p : Port) (b : Beat) : Statement (.discardChain p b) :=
  fun _ => rfl
theorem renewLease (p : Port) (b : Beat) : Statement (.renewLease p b) :=
  fun _ => rfl
theorem handChain (p : Port) (b : Beat) : Statement (.handChain p b) :=
  fun _ => rfl
theorem takeInbound (p : Port) (b : Beat) : Statement (.takeInbound p b) :=
  fun _ => rfl
theorem releaseChain (p : Port) (b : Beat) : Statement (.releaseChain p b) :=
  fun _ => rfl
theorem adoptChain (p : Port) (b : Beat) : Statement (.adoptChain p b) :=
  fun _ => rfl
theorem recallChain (p : Port) (b : Beat) : Statement (.recallChain p b) :=
  fun _ => rfl
theorem takeNotice (p : Port) (b : Beat) : Statement (.takeNotice p b) :=
  fun _ => rfl
theorem setEnables (p : Port) (b : Beat) : Statement (.setEnables p b) :=
  fun _ => rfl
theorem acknowledgeAttention (p : Port) (b : Beat) : Statement (.acknowledgeAttention p b) :=
  fun _ => rfl
theorem claimSettings (p : Port) (b : Beat) : Statement (.claimSettings p b) :=
  fun _ => rfl
theorem writeSetting (p : Port) (b : Beat) : Statement (.writeSetting p b) :=
  fun _ => rfl
theorem commitSettings (p : Port) (b : Beat) : Statement (.commitSettings p b) :=
  fun _ => rfl
theorem abandonSettings (p : Port) (b : Beat) : Statement (.abandonSettings p b) :=
  fun _ => rfl
theorem portReset (p : Port) (b : Beat) : Statement (.portReset p b) :=
  fun _ => rfl
theorem tick : Statement .tick :=
  fun h => nomatch h
theorem chainLeaseExpiry (n : ChainNo) : Statement (.chainLeaseExpiry n) :=
  fun h => nomatch h
theorem claimLeaseExpiry : Statement .claimLeaseExpiry :=
  fun h => nomatch h
theorem clearingStart : Statement .clearingStart :=
  fun h => nomatch h
theorem clearLineWrite : Statement .clearLineWrite :=
  fun h => nomatch h
theorem selectRise (p : Port) : Statement (.selectRise p) :=
  fun _ => rfl
theorem refclkPeriod : Statement .refclkPeriod :=
  fun h => nomatch h

end Sys2Proof.Laws.LinkPort
end

