-- ==== Sys2Proof/Tests/Slice0.lean ====
section
/-! SUPPORT. Tests: the ill-formed terms that are refused, reference values, and for every statement with hypotheses a
concrete state and operands that meet them, clause by clause and at the ends of their ranges, with what the row does
there. -/

open Sys2Proof Sys2Proof.Machine

namespace Sys2Proof.Tests

set_option Elab.async false

/-! ### Small states -/

/-- The part once BS is READY. -/
def base : State := { State.reset with ready := true }

/-- Port p's transaction stands at this point. -/
def put (p : Port) (l : Link) (s : State) : State := s.setPiu p { s.pius[p] with sel := true, link := l }

/-- Port p's action c waits for its select rise. -/
def await (c : Cmd) (p : Port) (ops : List Byte) (s : State) : State := put p (.body c ops .await) s

/-- A transaction of port p that opened while INITIALIZING. -/
def early (p : Port) (l : Link) (s : State) : State :=
  s.setPiu p { s.pius[p] with sel := true, link := l, early := true }

/-- Record n, in generation 3. -/
def chain (n : ChainNo) (l : Life) (len : Nat) (bs : List Nat) (s : State) : State :=
  s.setRec n { gen := 3, life := l, length := len, blocks := bs }

/-- A committed field, by its index. -/
def setting (i : Fin 23) (v : Word) (s : State) : State :=
  { s with committed := { fields := s.committed.fields.set i v } }

/-- The charge counters of one port. -/
def charged (p : Port) (blocks chains : Nat) (s : State) : State :=
  { s with chBlocks := s.chBlocks.set p blocks, chChains := s.chChains.set p chains }

/-- Port p has this stream, its data phase open, over this staging line. -/
def stream (c : Cmd) (p : Port) (st : Machine.Stream) (g : Staging) (s : State) : State :=
  s.setPiu p
    { sel := true, link := .body c [b8 st.ref.num.val, 3] .streaming, wire := Wire.idle, early := false,
      result := ResultRec.reset, staging := g, stream := some st }

/-- A staging line with a byte in every place. -/
def fullLine : Staging := { base := 0, cells := Vector.replicate 16 (some 0x5A), req := .none }

/-- The inbound queue of port p. -/
def inbound (p : Port) (es : List Entry) (s : State) : State := s.setInq p { s.inqs[p] with entries := es }

/-- The outcome in port p's Result record after a next state. -/
def outcome (p : Port) : Answer → Option Ending
  | .next t => some t.pius[p].result.ending
  | .fault _ => none
  | .refused _ => none

/-- What a test reads of a next state. -/
def look {α : Type} (f : State → α) : Answer → Option α
  | .next t => some (f t)
  | .fault _ => none
  | .refused _ => none

/-- The refusal, if the answer is one. -/
def refusal : Answer → Option Refusal
  | .next _ => none
  | .fault _ => none
  | .refused r => some r

/-- The fault, if the answer is one. -/
def stopped : Answer → Option Fault
  | .next _ => none
  | .fault r => some r
  | .refused _ => none

def label : Label := ⟨0x1234, 0⟩

/-- A delivery of P0 with P1 and P2 as destinations. -/
def delivery (pend hold : PortSet) (a f w : Nat) : Delivery :=
  { origin := 0, dests := 6, pend := pend, hold := hold, accepted := a, refused := f, withdrawn := w }

/-- An inbound entry for record 3. -/
def entry (void : Bool) : Entry := { ref := ⟨3, 3⟩, origin := 0, hops := 0, tag := 0x1234, length := 5, void := void }

/-- Record 0 OPEN, 1 SEALING, 2 SEALED, 3 DELIVERING, all of P0; every other is VACANT. -/
def four : State :=
  chain 0 (.opened 0 label) 130 [4, 9] (chain 1 (.sealing 0 label) 20 [5] (chain 2 (.sealed 0 label 0xBEEF) 0 []
    (chain 3 (.delivering (delivery 2 4 0 0 0) label 0xBEEF) 5 [7] base)))

/-! ### Ill-formed terms are refused (log entry 24) -/

theorem test_operand_where_none_is_refused :
    refusal (exec (.identify 0 (.operand 1)) (put 0 .command base)) = some .illFormed ∧
    (Instr.identify 0 (.operand 1)).wellFormed = false ∧ (Instr.takeNotice 1 (.operand 0)).wellFormed = false := by
  decide +kernel

theorem test_pass_of_data_in_is_refused :
    refusal (exec (.appendData 0 .pass) base) = some .illFormed ∧ refusal (exec (.rewriteData 3 .pass) base) = some .illFormed := by
  decide +kernel

theorem test_rise_of_stream_is_refused :
    refusal (exec (.appendData 0 .rise) base) = some .illFormed ∧ refusal (exec (.rewriteData 3 .rise) base) = some .illFormed ∧
    refusal (exec (.readData 0 .rise) base) = some .illFormed := by
  decide +kernel

theorem test_known_code_as_unknown_is_refused :
    refusal (exec (.unknownCommand 0 (.code 0x20)) (put 0 .command base)) = some .illFormed ∧
    refusal (exec (.unknownCommand 2 (.code 0x5F)) base) = some .illFormed := by
  decide +kernel

/-! ### Codes, layouts, reference values -/

/-- The table of section 12.6. -/
theorem test_command_codes :
    Cmd.all.map (fun c => (c.code.toNat, c.operandCount)) =
      [(0x10, 0), (0x11, 0), (0x12, 0), (0x13, 0), (0x14, 2), (0x15, 1), (0x1F, 0), (0x20, 2), (0x21, 2), (0x22, 4),
       (0x23, 4), (0x24, 4), (0x25, 2), (0x26, 2), (0x27, 2), (0x28, 2), (0x30, 3), (0x31, 0), (0x32, 3), (0x33, 2),
       (0x34, 2), (0x38, 0), (0x39, 1), (0x3A, 1), (0x40, 0), (0x41, 3), (0x42, 0), (0x43, 0), (0x5F, 0)] ∧
    Cmd.all.Nodup ∧ Cmd.all.all (fun c => Cmd.ofCode c.code = some c) = true := by
  decide +kernel

/-- The two layouts of section 12.8 with the most fields. -/
theorem test_layouts :
    (Entry.bytes { entry false with hops := 7 } = [3, 3, 0, 7, 0x12, 0x34, 0, 5]) ∧
    Notice.bytes (.sealed ⟨63, 15⟩ 0x1234 0xBEEF 8192) = [1, 63, 15, 0x12, 0x34, 0xBE, 0xEF, 0x20, 0x00, 0] := by
  decide +kernel

/-- The round of section 2.6 (R27): the grants after P2 with P1, P3 and both engines waiting. -/
theorem test_grant_round :
    (ringFrom (.piu 2)).filter (fun r => r ≠ .piu 0 && r ≠ .piu 2) = [.piu 3, .sealEngine, .clearEngine, .piu 1] := by
  decide +kernel

/-- An address is written, read back, and dropped from the list when it holds 00h again. -/
theorem test_store_list :
    Memory.write (Memory.write [] 200 0xAA) 3 0x55 = [(3, 0x55), (200, 0xAA)] ∧
    Memory.write [(3, 0x55), (200, 0xAA)] 3 0 = [(200, 0xAA)] ∧ Memory.read [(3, 0x55)] 4 = 0 := by
  decide +kernel

/-! ### The machine as a whole -/

theorem witness_ExecKeepsQueue :
    look id (exec .refclkPeriod { base with pending := [.tick] }) = some { base with pending := [.tick], divider := 1 } := by
  decide +kernel

/-- A state in which each link that waits for operand bytes still needs one, told by computation. -/
theorem operandsInv_of {s : State}
    (h : ∀ p : Port, (match s.pius[p].link with
      | .operand c ops => decide (ops.length < c.operandCount)
      | _ => true) = true) : OperandsInv s := by
  intro p c ops e
  have := h p
  rw [e] at this
  exact of_decide_eq_true this

/-- P0 waits for the last operand byte of Open Chain, seven bits of it sampled. -/
def lastOperand : State :=
  base.setPiu 0 { base.pius[(0 : Port)] with
    sel := true, link := .operand .openChain [1], wire := { bits := List.replicate 7 true, out := none } }

theorem witness_RefusedIffIllFormed :
    (Instr.appendData 0 .pass).wellFormed = false ∧ Instr.tick.wellFormed = true ∧
    OperandsInv lastOperand ∧ (Instr.selectFall ⟨0, .rising true⟩).wellFormed = true ∧
    look (fun t => t.pius[(0 : Port)].link) (exec (.selectFall ⟨0, .rising true⟩) lastOperand) =
      some (.body .openChain [1, 0xFF] .await) :=
  ⟨by decide +kernel, by decide +kernel, operandsInv_of (by decide +kernel), by decide +kernel, by decide +kernel⟩

theorem witness_DeviceEvents :
    (State.reset.resetn = true ∧ State.reset.ready = false) ∧ base.ready = true ∧
    look id (exec .initializationComplete State.reset) = some base ∧
    look id (exec .initializationComplete base) = some base ∧
    look id (exec .resetnRelease State.reset) = some State.reset := by
  decide +kernel

/-! ### The link -/

/-- Port p's transaction stands at this point, these bits of a byte sampled and this level on PnDO. -/
def putBits (p : Port) (l : Link) (bits : List Bool) (out : Option (Option Bool)) (s : State) : State :=
  s.setPiu p { s.pius[p] with sel := true, link := l, wire := { bits := bits, out := out } }

theorem witness_SelectEdges :
    base.pius[(2 : Port)].sel = false ∧
    look id (exec (.selectFall ⟨2, .select⟩) base) = some (put 2 .command base) ∧
    (∀ i ∈ [Instr.selectFall ⟨2, (.rising true)⟩, .selectFall ⟨2, .falling⟩, .selectRise 2, .framing 2 7,
        .unknownCommand 2 (.code 0), .identify 2 .code, .openChain 2 .rise, .appendDataByte 2 9, .readData 2 .pass,
        .readDataByte 2, .streamClose 2 .rise],
      (portOf i = some 2 ∧ i.wellFormed = true ∧ i ≠ .selectFall ⟨2, .select⟩ ∧ i ≠ .streamClose 2 .record) ∧
      look id (exec i base) = some base) ∧
    (∀ l ∈ ([.deselected, .command, .body .identify [] (.copy [1] []), .body .takeInbound [] .ended] : List Link),
      (put 2 l base).pius[(2 : Port)].sel = true ∧ look id (exec (.selectRise 2) (put 2 l base)) = some base) ∧
    (early 2 (.ignoring 0x20) base).pius[(2 : Port)].early = true ∧
    look id (exec (.selectRise 2) (early 2 (.ignoring 0x20) base)) = some base ∧
    look id (exec (.selectFall ⟨2, (.rising true)⟩) (put 2 .deselected base)) = some (put 2 .deselected base) := by
  decide +kernel

/-- The command byte 1Fh of Identify edge by edge: the falling edge before the first rising one is ignored, six bits, the
seventh, the eighth, and the falling edge from which PnDO is driven (R154). -/
theorem witness_SelectEdges_bits :
    look id (exec (.selectFall ⟨1, .falling⟩) (put 1 .command base)) = some (put 1 .command base) ∧
    look id (exec (.selectFall ⟨1, (.rising false)⟩) (put 1 .command base)) =
      some (putBits 1 .command [false] (some none) base) ∧
    look id (exec (.selectFall ⟨1, (.rising true)⟩) (putBits 1 .command [false, false, false, true, true, true] (some none) base)) =
      some (putBits 1 .command [false, false, false, true, true, true, true] (some none) base) ∧
    (let s := putBits 1 .command [false, false, false, true, true, true, true] (some none) base
     s.pius[(1 : Port)].wire.bits.length = 7 ∧ s.rowOf 1 0x1F = .identify 1 .code ∧
     (∀ k : Fin 8, (0x1F : Byte).getLsbD k.val =
       (s.pius[(1 : Port)].wire.bits ++ [true]).getD (7 - k.val) false) ∧
     look id (exec (.identify 1 .code) (put 1 .command base)) =
       some (put 1 (.body .identify [] (.copy [0x6A, 0x41, 0x01, 0x81] [])) base) ∧
     look id (exec (.selectFall ⟨1, (.rising true)⟩) s) =
       some (putBits 1 (.body .identify [] (.copy [0x6A, 0x41, 0x01, 0x81] [])) [] (some none) base)) ∧
    (let s := putBits 1 (.body .identify [] (.copy [0x6A] [])) [true, false] (some (some false)) base
     s.pnDO 1 = some 0x6A ∧ s.pnDOLevel 1 = some false ∧
     look id (exec (.selectFall ⟨1, .falling⟩) s) =
       some (putBits 1 (.body .identify [] (.copy [0x6A] [])) [true, false] (some (some true)) base)) := by
  decide +kernel

theorem witness_FramingRecorded :
    ((put 0 .command base).pius[(0 : Port)].sel = true ∧ (put 0 .command base).pius[(0 : Port)].early = false) ∧
    outcome 0 (exec (.framing 0 1) (put 0 .command base)) = some ⟨.framing, 0, 0⟩ ∧
    outcome 3 (exec (.framing 3 7) (put 3 (.operand .handChain [1, 2]) base)) = some ⟨.framing, 2, 3⟩ ∧
    look (fun t => t.edges[(3 : Port)]) (exec (.framing 3 0) (put 3 (.operand .handChain []) base)) = some 0x10 ∧
    look id (exec (.framing 0 0) (put 0 .command base)) = some base ∧
    outcome 0 (exec (.framing 0 0) (putBits 0 .command [true] none base)) = some ⟨.framing, 0, 0⟩ ∧
    stopped (exec (.framing 0 1) (putBits 0 .command (List.replicate 7 true) none base)) = some .linkPhase ∧
    look id (exec (.framing 0 7) (early 0 .command base)) = some base := by
  decide +kernel

theorem witness_UnknownCommandRecorded :
    Cmd.ofCode 0x1E = none ∧ AtCommand (put 1 .command base) 1 ∧
    look id (exec (.unknownCommand 1 (.code 0x1E)) (put 1 .command base)) = some (put 1 (.ignoring 0x1E) base) ∧
    ((put 1 (.ignoring 0x1E) base).pius[(1 : Port)].sel = true ∧
      (put 1 (.ignoring 0x1E) base).pius[(1 : Port)].early = false ∧ AtByte (put 1 (.ignoring 0x1E) base) 1) ∧
    outcome 1 (exec (.unknownCommand 1 .rise) (put 1 (.ignoring 0x1E) base)) = some ⟨.unknownCommand, 0, 0⟩ := by
  decide +kernel

theorem witness_OperandsGathered :
    AtCommand (put 1 .command base) 1 ∧ 0 < Cmd.handChain.operandCount ∧
    (AtOperand (put 1 (.operand .handChain [5]) base) 1 .handChain [5] ∧ [(5 : Byte)].length + 1 < 3) ∧
    Cmd.openChain.cls = .action ∧ Cmd.portReset.operandCount = 0 ∧
    look id (exec (.portReset 1 .code) (put 1 .command base)) = some (await .portReset 1 [] base) ∧
    AtOperand (put 1 (.operand .openChain [5]) base) 1 .openChain [5] ∧
    look id (exec (.openChain 1 (.operand 6)) (put 1 (.operand .openChain [5]) base)) = some (await .openChain 1 [5, 6] base) ∧
    InBody (await .openChain 1 [5, 6] base) 1 .openChain [5, 6] .await := by
  decide +kernel

theorem witness_InitializingIgnored :
    ((early 3 .command State.reset).pius[(3 : Port)].sel = true ∧
      (early 3 .command State.reset).pius[(3 : Port)].stream = none) ∧
    AtByte (early 3 .command State.reset) 3 ∧
    look id (exec (.openChain 3 .code) (early 3 .command State.reset)) = some (early 3 (.ignoring 0x20) State.reset) ∧
    look id (exec (.unknownCommand 3 (.code 0xFF)) (early 3 .command State.reset)) =
      some (early 3 (.ignoring 0xFF) State.reset) ∧
    (∀ i ∈ [Instr.unknownCommand 3 .pass, .openChain 3 (.operand 9), .appendDataByte 3 1, .readDataByte 3, .readData 3 .pass],
      (portOf i = some 3 ∧ isByte i = true ∧ i.wellFormed = true) ∧
      look id (exec i (early 3 (.ignoring 0x20) base)) = some (early 3 (.ignoring 0x20) base)) ∧
    look id (exec (.identify 3 .code) (early 3 .command State.reset)) =
      some (early 3 (.body .identify [] (.copy [0x6A, 0x41, 0x01, 3] [])) State.reset) ∧
    (early 3 (.ignoring 0x20) base).pnDO 3 = none := by
  decide +kernel

/-- P3 is disabled. -/
def without3 : State := setting 22 7 base

theorem witness_DisabledRefused :
    without3.isEnabled 3 = false ∧ InBody (await .openChain 3 [1, 2] without3) 3 .openChain [1, 2] .await ∧
    outcome 3 (exec (.openChain 3 .rise) (await .openChain 3 [1, 2] without3)) = some ⟨.disabled, 7, 0⟩ ∧
    AtCommand (put 3 .command without3) 3 ∧ AtOperand (put 3 (.operand .readChainInfo [0]) without3) 3 .readChainInfo [0] ∧
    (∀ c ∈ [Cmd.readData, .takeNotice],
      InBody (put 3 (.body c [] (.refused ⟨.disabled, 7, 0⟩)) without3) 3 c [] (.refused ⟨.disabled, 7, 0⟩)) ∧
    outcome 3 (exec (.streamClose 3 .rise) (put 3 (.body .readData [] (.refused ⟨.disabled, 7, 0⟩)) without3)) =
      some ⟨.disabled, 7, 0⟩ ∧
    (∀ c ∈ [Cmd.appendData, .rewriteData, .readData, .takeInbound],
      (InBody (put 3 (.body c [] .ended) base) 3 c [] .ended ∧ AtByte (put 3 (.body c [] .ended) base) 3) ∧
      ∀ i ∈ bodyRows c 3 0xAA,
        look id (exec i (put 3 (.body c [] .ended) base)) = some (put 3 (.body c [] .ended) base) ∧
        look id (exec i (put 3 (.body c [] (.refused ⟨.stale, 0, 0⟩)) base)) =
          some (put 3 (.body c [] (.refused ⟨.stale, 0, 0⟩)) base)) ∧
    look id (exec (.streamClose 3 .rise) (put 3 (.body .appendData [] .ended) base)) = some base ∧
    look id (exec (.takeNotice 3 .rise) (put 3 (.body .takeNotice [] .ended) base)) = some base := by
  decide +kernel

/-! ### Queries -/

theorem witness_StatusQueriesCopy :
    (AtCommand (put 0 .command base) 0 ∧ base.isEnabled 0 = true) ∧
    look id (exec (.readFreeStatus 0 .code) (put 0 .command base)) =
      some (put 0 (.body .readFreeStatus [] (.copy [2, 0, 0, 0, 0, 0, 0, 0, 0, 128, 16] [])) base) ∧
    look id (exec (.readAttention 0 .code) (put 0 .command base)) =
      some (put 0 (.body .readAttention [] (.copy [0, 0, 0] [])) base) ∧
    look id (exec (.readQueueStatus 0 .code) (put 0 .command base)) =
      some (put 0 (.body .readQueueStatus [] (.copy [8, 0, 0, 0, 0, 0, 0] [])) base) := by
  decide +kernel

theorem witness_ChainInfoCopied :
    (AtOperand (put 2 (.operand .readChainInfo [64]) four) 2 .readChainInfo [64] ∧ four.isEnabled 2 = true ∧
      64 ≤ (64 : Byte).toNat ∧ 16 ≤ (16 : Byte).toNat) ∧
    ((3 : Byte).toNat = (3 : ChainNo).val ∧ (15 : Byte).toNat < 16) ∧
    look id (exec (.readChainInfo 2 (.operand 3)) (put 2 (.operand .readChainInfo [3]) four)) =
      some (put 2 (.body .readChainInfo [3, 3] (.copy
        [0xFF, 4, 3, 0, 0, 5, 2, 1, 1, 0x12, 0x34, 0, 0, 0xBE, 0xEF, 1, 0, 7] [])) four) ∧
    look id (exec (.readChainInfo 1 (.operand 3)) (put 1 (.operand .readChainInfo [3]) four)) =
      some (put 1 (.body .readChainInfo [3, 3] (.copy [0xFF, 4, 3, 0, 0, 5, 2, 1, 1, 0, 0, 0, 0, 0, 0, 0] [])) four) := by
  decide +kernel

/-- P2 holds the claim. -/
def claimed : State := { base with claim := some ⟨2, base.committed⟩, claimLease := .running 32 }

theorem witness_SettingsIdentityResultCopied :
    AtOperand (put 2 (.operand .readSettings []) claimed) 2 .readSettings [] ∧
    claimed.claim = some ⟨2, claimed.committed⟩ ∧ (∀ cl ∈ claimed.claim, cl.holder ≠ 1) ∧
    look id (exec (.readSettings 1 (.operand 1)) (put 1 (.operand .readSettings []) claimed)) =
      some (put 1 (.body .readSettings [1] (.copy [] [])) claimed) ∧
    AtCommand (put 2 .command claimed) 2 ∧
    look id (exec (.identify 2 .code) (put 2 .command claimed)) =
      some (put 2 (.body .identify [] (.copy [0x6A, 0x41, 0x01, 0x82] [])) claimed) := by
  decide +kernel

theorem witness_QueryOutput :
    Cmd.readResult.cls = .query ∧
    (∀ bytes ∈ ([[], [1], [1, 2]] : List (List Byte)),
      InBody (put 0 (.body .readResult [] (.copy bytes [9])) base) 0 .readResult [] (.copy bytes [9])) ∧
    look id (exec (.readResult 0 .pass) (put 0 (.body .readResult [] (.copy [1] [9])) base)) =
      some (put 0 (.body .readResult [] (.copy [9] [9])) base) := by
  decide +kernel

theorem witness_CopyUndisturbed :
    InBody (put 0 (.body .identify [] (.copy [1] [])) base) 0 .identify [] (.copy [1] []) ∧
    portOf (.selectFall ⟨1, .select⟩) ≠ some 0 ∧ Instr.selectFall ⟨1, .select⟩ ≠ .powerOn ∧
    Instr.selectFall ⟨1, .select⟩ ≠ .resetnAssertion ∧
    look id (exec (.selectFall ⟨1, .select⟩) (put 0 (.body .identify [] (.copy [1] [])) base)) =
      some (put 1 .command (put 0 (.body .identify [] (.copy [1] [])) base)) := by
  decide +kernel

/-! ### Commands that name a chain -/

theorem witness_ChainChecksRefuse :
    (Cmd.sealChain ∈ chainActions ∧ Waits (await .sealChain 0 [64, 0] four) 0 .sealChain [64, 0]) ∧
    outcome 0 (exec (.sealChain 0 .rise) (await .sealChain 0 [64, 0] four)) = some ⟨.range, 0, 0⟩ ∧
    outcome 0 (exec (.sealChain 0 .rise) (await .sealChain 0 [0, 16] four)) = some ⟨.range, 0, 0⟩ ∧
    outcome 0 (exec (.sealChain 0 .rise) (await .sealChain 0 [63, 0] four)) = some ⟨.stale, 0, 0⟩ ∧
    outcome 0 (exec (.sealChain 0 .rise) (await .sealChain 0 [0, 2] four)) = some ⟨.stale, 3, 1⟩ ∧
    (holdsRole .sealChain four.recs[(0 : ChainNo)].life 1 = false ∧
      outcome 1 (exec (.sealChain 1 .rise) (await .sealChain 1 [0, 3] four)) = some ⟨.notYours, 1, 0⟩) ∧
    (holdsRole .sealChain four.recs[(1 : ChainNo)].life 0 = true ∧ four.recs[(1 : ChainNo)].life.owner = some 0 ∧
      four.recs[(1 : ChainNo)].life.phase ∉ ownerStates .sealChain ∧
      outcome 0 (exec (.sealChain 0 .rise) (await .sealChain 0 [1, 3] four)) = some ⟨.wrongState, 2, 0⟩) := by
  decide +kernel

/-- Every record but 63 is OPEN. -/
def crowded : State :=
  { base with recs := Vector.ofFn (fun n : Fin 64 =>
      { gen := 3, life := if n = 63 then .vacant else .opened 0 label, length := 0, blocks := [] }) }

theorem witness_OpenChain :
    Waits (await .openChain 1 [0x12, 0x34] crowded) 1 .openChain [0x12, 0x34] ∧
    (crowded.chChains[(1 : Port)] < crowded.committed.chainQuota 1 ∧ crowded.recs[(63 : ChainNo)].life = .vacant ∧
      ∀ m : ChainNo, m < 63 → crowded.recs[m].life ≠ .vacant) ∧
    outcome 1 (exec (.openChain 1 .rise) (await .openChain 1 [0x12, 0x34] crowded)) = some ⟨.ok, 63, 3⟩ ∧
    (∀ n : ChainNo, (chain 63 (.opened 1 label) 0 [] crowded).recs[n].life ≠ .vacant) ∧
    outcome 1 (exec (.openChain 1 .rise) (await .openChain 1 [0, 0] (chain 63 (.opened 1 label) 0 [] crowded))) =
      some ⟨.noRecord, 0, 0⟩ ∧
    (charged 1 0 16 crowded).committed.chainQuota 1 ≤ (charged 1 0 16 crowded).chChains[(1 : Port)] ∧
    outcome 1 (exec (.openChain 1 .rise) (await .openChain 1 [0, 0] (charged 1 0 16 crowded))) =
      some ⟨.quotaChains, 16, 16⟩ := by
  decide +kernel

theorem witness_DiscardChain :
    (∀ n ∈ ([0, 1, 2] : List ChainNo),
      Waits (await .discardChain 0 [b8 n.val, 3] four) 0 .discardChain [b8 n.val, 3] ∧ Names four (b8 n.val) 3 n ∧
      four.recs[n].life.owner = some 0) ∧
    outcome 0 (exec (.discardChain 0 .rise) (await .discardChain 0 [0, 3] four)) = some ⟨.ok, 2, 0⟩ ∧
    look (fun t => t.clearQ) (exec (.discardChain 0 .rise) (await .discardChain 0 [0, 3] four)) = some [4, 9] := by
  decide +kernel

/-- Record 1's seal runs, record 0's waits behind it. -/
def sealing : State :=
  { chain 0 (.sealing 0 label) 130 [4, 9] four with
    sealQ := [⟨0, 3⟩], sealEng := some (SealRun.start ⟨1, 3⟩ 20) }

/-- P2 reads record 3. -/
def reading : State := stream .readData 2 (Stream.initial .read ⟨3, 3⟩ 0) fullLine four

theorem witness_VacateEffects :
    four.recs[(0 : ChainNo)].life.charged = some 0 ∧ four.committed.clearOnRelease = true ∧
    (setting 20 0 four).committed.clearOnRelease = false ∧ four.recs[(0 : ChainNo)].life.phase ≠ .sealing ∧
    (sealing.recs[(0 : ChainNo)].life.phase = .sealing ∧ (∀ run ∈ sealing.sealEng, run.ref.num ≠ 0)) ∧
    (sealing.recs[(1 : ChainNo)].life.phase = .sealing ∧ sealing.sealEng.map (·.ref.num) = some 1) ∧
    (sealing.vacate 1).sealEng = some (SealRun.start ⟨0, 3⟩ 130) ∧ (sealing.vacate 0).sealQ = [] ∧
    reading.pius[(2 : Port)].stream.map (·.ref) = some ⟨3, reading.recs[(3 : ChainNo)].gen⟩ ∧
    ((reading.vacate 3).pius[(2 : Port)].stream.map (·.revoked)) = some true ∧
    reading.pius[(1 : Port)].stream = none ∧
    (let s := stream .appendData 0 { Stream.initial .append ⟨0, 3⟩ 0 with closing := true, earned := some ⟨.ok, 0, 130⟩ }
        Staging.reset four
     (s.vacate 0).pius[(0 : Port)] = s.pius[(0 : Port)]) := by
  decide +kernel

theorem witness_ExtendChainGrows :
    (Waits (await .extendChain 0 [0, 3, 0, 126] four) 0 .extendChain [0, 3, 0, 126] ∧ Names four 0 3 0 ∧
      four.recs[(0 : ChainNo)].life = .opened 0 label) ∧
    outcome 0 (exec (.extendChain 0 .rise) (await .extendChain 0 [0, 3, 0, 126] four)) = some ⟨.ok, 256, 0⟩ ∧
    outcome 0 (exec (.extendChain 0 .rise) (await .extendChain 0 [0, 3, 0, 127] four)) = some ⟨.ok, 257, 1⟩ ∧
    outcome 0 (exec (.extendChain 0 .rise) (await .extendChain 0 [0, 3, 0x1F, 0x7E] four)) = some ⟨.ok, 8192, 62⟩ := by
  decide +kernel

theorem witness_ExtendChainRefused :
    (Waits (await .extendChain 0 [0, 3, 0, 0] four) 0 .extendChain [0, 3, 0, 0] ∧ Names four 0 3 0 ∧
      four.recs[(0 : ChainNo)].life = .opened 0 label) ∧
    outcome 0 (exec (.extendChain 0 .rise) (await .extendChain 0 [0, 3, 0, 0] four)) = some ⟨.range, 0, 0⟩ ∧
    outcome 0 (exec (.extendChain 0 .rise) (await .extendChain 0 [0, 3, 0x20, 0x01] four)) = some ⟨.range, 0, 0⟩ ∧
    outcome 0 (exec (.extendChain 0 .rise) (await .extendChain 0 [0, 3, 0x1F, 0x7F] four)) =
      some ⟨.tooLong, 130, 0x1F7F⟩ ∧
    outcome 0 (exec (.extendChain 0 .rise) (await .extendChain 0 [0, 3, 0, 127] (charged 0 128 4 four))) =
      some ⟨.quotaBlocks, 128, 128⟩ ∧
    outcome 0 (exec (.extendChain 0 .rise) (await .extendChain 0 [0, 3, 0, 127] { four with free := [] })) =
      some ⟨.noBlock, 0, 1⟩ := by
  decide +kernel

theorem witness_WatermarkCompared :
    (base.watermark = .armed ∧ (List.range 31).length < base.committed.lowMark ∧
      base.committed.lowMark ≤ (List.range 32).length) ∧
    (base.freeFalls (List.range 31)).edges = Vector.replicate 4 0x04 ∧
    ({ base with watermark := .tripped } : State).watermark = .tripped ∧
    base.committed.highMark ≤ (List.range 64).length ∧ (List.range 63).length < base.committed.highMark := by
  decide +kernel

theorem witness_RenewLeaseLoads :
    (∀ n ∈ ([0, 1, 2] : List ChainNo), Waits (await .renewLease 0 [b8 n.val, 3] four) 0 .renewLease [b8 n.val, 3] ∧
      Names four (b8 n.val) 3 n ∧ four.recs[n].life.owner = some 0) ∧
    (∀ p ∈ ([0, 1, 2] : List Port), Waits (await .renewLease p [3, 3] four) p .renewLease [3, 3] ∧
      outcome p (exec (.renewLease p .rise) (await .renewLease p [3, 3] four)) = some ⟨.ok, 128, 4⟩) ∧
    Names four 3 3 3 ∧ four.recs[(3 : ChainNo)].life.delivery = some (delivery 2 4 0 0 0) := by
  decide +kernel

/-! ### Streams -/

theorem witness_StreamsTaken :
    (AtOperand (put 0 (.operand .appendData [0]) four) 0 .appendData [0] ∧ four.isEnabled 0 = true ∧
      four.recs[(0 : ChainNo)].life.owner = some 0 ∧ four.recs[(0 : ChainNo)].life.phase ∈ ownerStates .appendData) ∧
    look (fun t => t.pius[(0 : Port)].stream) (exec (.appendData 0 (.operand 3)) (put 0 (.operand .appendData [0]) four)) =
      some (some (Stream.initial .append ⟨0, 3⟩ 0)) ∧
    look (fun t => t.pius[(0 : Port)].link)
      (exec (.appendData 0 (.operand 16)) (put 0 (.operand .appendData [0]) four)) =
      some (.body .appendData [0, 16] (.refused ⟨.range, 0, 0⟩)) ∧
    look (fun t => t.pius[(0 : Port)].link)
      (exec (.appendData 0 (.operand 3)) (put 0 (.operand .appendData [63]) four)) =
      some (.body .appendData [63, 3] (.refused ⟨.stale, 0, 0⟩)) ∧
    look (fun t => t.pius[(1 : Port)].link)
      (exec (.rewriteData 1 (.operand 0)) (put 1 (.operand .rewriteData [0, 3, 0]) four)) =
      some (.body .rewriteData [0, 3, 0, 0] (.refused ⟨.notYours, 1, 0⟩)) ∧
    look (fun t => t.pius[(0 : Port)].link)
      (exec (.rewriteData 0 (.operand 0)) (put 0 (.operand .rewriteData [2, 3, 0]) four)) =
      some (.body .rewriteData [2, 3, 0, 0] (.refused ⟨.wrongState, 3, 0⟩)) ∧
    look (fun t => t.pius[(2 : Port)].link)
      (exec (.readData 2 (.operand 0x00)) (put 2 (.operand .readData [3, 3, 0x20]) four)) =
      some (.body .readData [3, 3, 0x20, 0x00] (.refused ⟨.range, 0, 0⟩)) ∧
    four.recs[(3 : ChainNo)].life.hasRole 2 .holder = true ∧
    look (fun t => t.pius[(2 : Port)].staging.req)
      (exec (.readData 2 (.operand 4)) (put 2 (.operand .readData [3, 3, 0]) four)) = some .fill ∧
    look (fun t => t.pius[(2 : Port)].staging.req)
      (exec (.readData 2 (.operand 0xFF)) (put 2 (.operand .readData [3, 3, 0x1F]) four)) = some .none := by
  decide +kernel

/-- P0's Append Data on record 0. -/
def appending : State := stream .appendData 0 (Stream.initial .append ⟨0, 3⟩ 0) Staging.reset four

/-- The same with record 0 at the end of its last block. -/
def appendingFull (blocks : Nat) : State :=
  stream .appendData 0 (Stream.initial .append ⟨0, 3⟩ 0) Staging.reset
    (chain 0 (.opened 0 label) (128 * blocks) (List.range blocks) four)

theorem witness_AppendByteTaken :
    byteAddr [4, 9] 130 = 1154 ∧ lineBase [4, 9] 255 = 1264 ∧
    (Streams appending 0 .appendData [0, 3] (Stream.initial .append ⟨0, 3⟩ 0) ∧ AtByte appending 0 ∧
      appending.pnDO 0 = some 0xFF) ∧
    (appending.recs[(0 : ChainNo)].length % 128 ≠ 0 ∧ appending.pius[(0 : Port)].staging.req = .none) ∧
    look (fun t => (t.recs[(0 : ChainNo)].length, t.pius[(0 : Port)].staging.base))
      (exec (.appendDataByte 0 0xAA) appending) = some (131, 1152) ∧
    ((appendingFull 63).recs[(0 : ChainNo)].length % 128 = 0 ∧ (appendingFull 63).recs[(0 : ChainNo)].blocks.length < 64 ∧
      (appendingFull 63).free ≠ []) ∧
    look (fun t => (t.recs[(0 : ChainNo)].blocks.length, t.chBlocks[(0 : Port)])) (exec (.appendDataByte 0 0xAA) (appendingFull 63)) =
      some (64, 1) ∧
    (∀ x ∈ [(appendingFull 64, ResultCode.tooLong), (charged 0 128 1 (appendingFull 63), .quotaBlocks),
        ({ appendingFull 63 with free := [] }, .noBlock)],
      look (fun t => t.pius[(0 : Port)].stream.bind (·.stopped)) (exec (.appendDataByte 0 0xAA) x.1) = some (some x.2)) ∧
    Streams (stream .appendData 0 { Stream.initial .append ⟨0, 3⟩ 0 with revoked := true } Staging.reset four) 0
      .appendData [0, 3] { Stream.initial .append ⟨0, 3⟩ 0 with revoked := true } := by
  decide +kernel

/-- P0's Rewrite Data on record 0, at an offset. -/
def rewriting (off : Nat) : State := stream .rewriteData 0 (Stream.initial .rewrite ⟨0, 3⟩ off) Staging.reset four

/-- P0's Read Data on record 0, at an offset, with its line filled and a byte in the shift stage or none yet. -/
def readingAt (off : Nat) (shift : Option Byte) : State :=
  stream .readData 0 { Stream.initial .read ⟨0, 3⟩ off with shift := shift } fullLine four

theorem witness_RewriteAndReadBytes :
    (∀ off ∈ [129, 130], Streams (rewriting off) 0 .rewriteData [0, 3] (Stream.initial .rewrite ⟨0, 3⟩ off)) ∧
    (rewriting 129).pius[(0 : Port)].staging.req = .none ∧
    look (fun t => t.pius[(0 : Port)].stream.map (fun st => (st.count, st.short))) (exec (.rewriteDataByte 0 1) (rewriting 129)) =
      some (some (1, false)) ∧
    look (fun t => t.pius[(0 : Port)].stream.map (fun st => (st.count, st.short))) (exec (.rewriteDataByte 0 1) (rewriting 130)) =
      some (some (0, true)) ∧
    (Streams (readingAt 15 none) 0 .readData [0, 3] (Stream.initial .read ⟨0, 3⟩ 15) ∧ AtByte (readingAt 15 none) 0 ∧
      (readingAt 15 none).pnDO 0 = some 0xFF) ∧
    look (fun t => (t.pnDO 0, t.pius[(0 : Port)].staging.req)) (exec (.readData 0 .pass) (readingAt 15 none)) =
      some (some 0x5A, .fill) ∧
    (readingAt 14 (some 7)).pnDO 0 = some 7 ∧
    look (fun t => (t.pnDO 0, t.pius[(0 : Port)].staging.req)) (exec (.readDataByte 0) (readingAt 14 (some 7))) =
      some (some 0x5A, .fill) ∧
    look (fun t => t.pnDO 0) (exec (.readDataByte 0) (readingAt 129 (some 7))) = some (some 0xFF) ∧
    look (fun t => t.pnDO 0) (exec (.readData 0 .pass) (readingAt 130 none)) = some (some 0xFF) := by
  decide +kernel

/-- P0's staging line asks for a grant, two bytes placed. -/
def lining (r : LineReq) : State :=
  base.setPiu 0 { base.pius[(0 : Port)] with
    staging := { base := 256, cells := (Vector.replicate 16 none).set 0 (some 0xAA) |>.set 15 (some 0xBB), req := r } }

/-- P0's Append Data on record 0, one byte accepted, its select risen, its last line asking for a grant. -/
def closing : State :=
  four.setPiu 0 { four.pius[(0 : Port)] with
    stream := some { Stream.initial .append ⟨0, 3⟩ 0 with count := 1, closing := true }
    staging := { base := 1152, cells := (Vector.replicate 16 none).set 0 (some 0xAA), req := .write } }

/-- The outcome of `closing` when these steps come between its last line write and its recording, and before them. -/
def closed (before after : State → State) : Option Ending :=
  match exec (.stagingLineWrite 0) (before closing) with
  | .next t => outcome 0 (exec (.streamClose 0 .record) (after t))
  | .fault _ => none
  | .refused _ => none

/-- A vacate after the last line write leaves the outcome the stream has earned (R29); one before it ends the stream, whose
line is then never written; a withdrawal after the write leaves the outcome to be recorded (log entry 29). -/
theorem test_last_write_ends_progress :
    closed id id = some ⟨.ok, 1, 130⟩ ∧ closed id (fun t => t.vacate 0) = some ⟨.ok, 1, 130⟩ ∧
    look id (exec (.stagingLineWrite 0) (closing.vacate 0)) = some (closing.vacate 0) ∧
    outcome 0 (exec (.streamClose 0 .record) (closing.vacate 0)) = some ⟨.revoked, 1, 0⟩ ∧
    closed id (fun t => t.stripPort 0 disabledResult) = some ⟨.ok, 1, 130⟩ ∧
    (∀ st ∈ (closing.stripPort 0 disabledResult).pius[(0 : Port)].stream, st.closing = false) ∧
    look id (exec (.streamClose 0 .record) (closing.stripPort 0 disabledResult)) =
      some (closing.stripPort 0 disabledResult) ∧
    ((closing.vacate 0).stripPort 0 disabledResult).pius[(0 : Port)].stream = none := by
  decide +kernel

theorem witness_StagingLineAccess :
    (∀ r ∈ [LineReq.write, .fill], StoreInv (lining r) ∧ (lining r).nextGrant = some (.piu 0) ∧
      (lining r).pius[(0 : Port)].staging.req = r) ∧
    look id (exec (.stagingLineWrite 0) (lining .fill)) = some (lining .fill) ∧
    look id (exec (.stagingLineFill 0) (lining .none)) = some (lining .none) ∧
    look (fun t => t.store) (exec (.stagingLineWrite 0) (lining .write)) = some [(256, 0xAA), (271, 0xBB)] ∧
    look (fun t => t.pius[(0 : Port)].staging.cells) (exec (.stagingLineFill 0) (lining .fill)) =
      some (Vector.replicate 16 (some 0)) ∧
    look (fun t => t.pius[(0 : Port)].stream.bind (·.earned)) (exec (.stagingLineWrite 0) closing) =
      some (some ⟨.ok, 1, 130⟩) := by
  unfold StoreInv; decide +kernel

theorem witness_StreamCloseRecords :
    (InBody appending 0 .appendData [0, 3] .streaming ∧ ∀ i : Fin 16, appending.pius[(0 : Port)].staging.cells[i] = none) ∧
    outcome 0 (exec (.streamClose 0 .rise) appending) = some ⟨.ok, 0, 130⟩ ∧
    (∃ i : Fin 16, (stream .appendData 0 (Stream.initial .append ⟨0, 3⟩ 0) fullLine four).pius[(0 : Port)].staging.cells[i] ≠ none) ∧
    look (fun t => t.pius[(0 : Port)].staging.req)
      (exec (.streamClose 0 .rise) (stream .appendData 0 (Stream.initial .append ⟨0, 3⟩ 0) fullLine four)) = some .write ∧
    outcome 0 (exec (.streamClose 0 .rise)
      (stream .appendData 0 { Stream.initial .append ⟨0, 3⟩ 0 with stopped := some .noBlock } Staging.reset four)) =
      some ⟨.short, 0, 0x0A⟩ ∧
    outcome 0 (exec (.streamClose 0 .rise) (readingAt 130 (some 0xFF))) = some ⟨.short, 0, 130⟩ ∧
    outcome 0 (exec (.streamClose 0 .rise) (readingAt 129 (some 0xFF))) = some ⟨.ok, 0, 130⟩ ∧
    outcome 0 (exec (.streamClose 0 .record)
      (stream .rewriteData 0 { Stream.initial .rewrite ⟨0, 3⟩ 0 with closing := true, short := true } Staging.reset four)) =
      some ⟨.short, 0, 130⟩ ∧
    outcome 0 (exec (.streamClose 0 .record)
      (stream .rewriteData 0 { Stream.initial .rewrite ⟨0, 3⟩ 0 with closing := true, earned := some ⟨.ok, 3, 9⟩ }
        Staging.reset four)) = some ⟨.ok, 3, 9⟩ ∧
    outcome 0 (exec (.streamClose 0 .rise)
      (stream .rewriteData 0 { Stream.initial .rewrite ⟨0, 3⟩ 0 with revoked := true } Staging.reset four)) =
      some ⟨.revoked, 0, 0⟩ := by
  decide +kernel

/-! ### Sealing -/

theorem witness_SealAndUnseal :
    Names four 0 3 0 ∧ Waits (await .sealChain 0 [0, 3] four) 0 .sealChain [0, 3] ∧
    (four.sealEng = none ∧ four.sealQ = [] ∧ four.recs[(0 : ChainNo)].life = .opened 0 label) ∧
    outcome 0 (exec (.sealChain 0 .rise) (await .sealChain 0 [0, 3] four)) = some ⟨.ok, 0, 130⟩ ∧
    outcome 0 (exec (.sealChain 0 .rise)
      (await .sealChain 0 [0, 3] { four with sealEng := some (SealRun.start ⟨1, 3⟩ 20) })) = some ⟨.ok, 1, 130⟩ ∧
    (Waits (await .unsealChain 0 [2, 3] four) 0 .unsealChain [2, 3] ∧ Names four 2 3 2 ∧
      four.recs[(2 : ChainNo)].life = .sealed 0 label 0xBEEF) ∧
    outcome 0 (exec (.unsealChain 0 .rise) (await .unsealChain 0 [2, 3] four)) = some ⟨.ok, 3, 0⟩ ∧
    (Names sealing 0 3 0 ∧ sealing.recs[(0 : ChainNo)].life = .sealing 0 label ∧ ∀ run ∈ sealing.sealEng, run.ref.num ≠ 0) ∧
    look (fun t => t.sealQ) (exec (.unsealChain 0 .rise) (await .unsealChain 0 [0, 3] sealing)) = some [] ∧
    (sealing.recs[(1 : ChainNo)].life = .sealing 0 label ∧ sealing.sealEng = some (SealRun.start ⟨1, 3⟩ 20)) ∧
    look (fun t => t.sealEng) (exec (.unsealChain 0 .rise) (await .unsealChain 0 [1, 3] sealing)) =
      some (some (SealRun.start ⟨0, 3⟩ 130)) := by
  decide +kernel

/-- The Seal Engine at record 1, of length 20. -/
def engine (next : Nat) (finishing : Bool) : State :=
  { four with sealEng := some { ref := ⟨1, 3⟩, length := 20, next := next, reg := 0xFFFF, finishing := finishing } }

theorem witness_SealLineRead :
    ((engine 0 false).sealEng.isSome ∧ (engine 0 false).nextGrant = some .sealEngine ∧
      (engine 0 false).recs[(1 : ChainNo)].blocks = [5] ∧ min ((0 / 16 + 1) * 16) 20 = 16 ∧
      (0xFFFF : Word) = crc (chainBytes (engine 0 false).store [5] 0 0)) ∧
    look (fun t => t.sealEng.map (fun r => (r.next, r.finishing))) (exec .sealLineRead (engine 0 false)) =
      some (some (16, false)) ∧
    look (fun t => t.sealEng.map (fun r => (r.next, r.finishing))) (exec .sealLineRead (engine 16 false)) =
      some (some (20, true)) ∧
    look id (exec .sealLineRead (engine 20 true)) = some (engine 20 true) ∧
    look id (exec .sealLineRead base) = some base := by
  decide +kernel

theorem witness_SealCompletion :
    look id (exec .sealCompletion (engine 16 false)) = some (engine 16 false) ∧
    look id (exec .sealCompletion base) = some base ∧
    (engine 20 true).recs[(1 : ChainNo)] = { gen := 3, life := .sealing 0 label, length := 20, blocks := [5] } ∧
    look (fun t => (t.recs[(1 : ChainNo)].life, t.notqs[(0 : Port)], t.sealEng)) (exec .sealCompletion (engine 20 true)) =
      some (.sealed 0 label 0xFFFF, [.sealed ⟨1, 3⟩ 0x1234 0xFFFF 20], none) ∧
    (chain 1 (.opened 0 label) 20 [5] (engine 20 true)).recs[(1 : ChainNo)].life.phase ≠ .sealing ∧
    look id (exec .sealCompletion (chain 1 (.opened 0 label) 20 [5] (engine 20 true))) =
      some { chain 1 (.opened 0 label) 20 [5] (engine 20 true) with sealEng := none } := by
  decide +kernel

theorem witness_CheckValue :
    ∀ k, k < 2 → Memory.read [(640, 1)] (byteAddr [5] k) = Memory.read [(0, 1)] (byteAddr [0] k) := by
  decide +kernel

/-! ### Hand-off -/

theorem witness_HandChainDelivers :
    (Waits (await .handChain 0 [2, 3, 14] four) 0 .handChain [2, 3, 14] ∧ Names four 2 3 2 ∧
      four.recs[(2 : ChainNo)].life = .sealed 0 label 0xBEEF ∧ inSet 14 0 = false ∧
      ∀ q : Port, inSet 14 q = true → four.isEnabled q = true ∧ four.inqs[q].entries.length < four.committed.depth q) ∧
    outcome 0 (exec (.handChain 0 .rise) (await .handChain 0 [2, 3, 14] four)) = some ⟨.ok, 3, 14⟩ ∧
    look (fun t => t.inqs[(3 : Port)]) (exec (.handChain 0 .rise) (await .handChain 0 [2, 3, 14] four)) =
      some { InQueue.reset with entries := [{ entry false with ref := ⟨2, 3⟩, length := 0 }], posted := 1 } := by
  decide +kernel

theorem witness_HandChainRefused :
    (∀ m ∈ ([0, 16, 1, 3] : List Byte), Waits (await .handChain 0 [2, 3, m] four) 0 .handChain [2, 3, m] ∧
      outcome 0 (exec (.handChain 0 .rise) (await .handChain 0 [2, 3, m] four)) =
        some ⟨.destInvalid, m.setWidth 16, 0⟩) ∧
    (inSet 8 3 = true ∧ (setting 22 7 four).isEnabled 3 = false ∧
      outcome 0 (exec (.handChain 0 .rise) (await .handChain 0 [2, 3, 14] (setting 22 7 four))) =
        some ⟨.destDisabled, 3, 7⟩) ∧
    ((inbound 2 (List.replicate 8 (entry true)) four).committed.depth 2 ≤
        (inbound 2 (List.replicate 8 (entry true)) four).inqs[(2 : Port)].entries.length ∧
      outcome 0 (exec (.handChain 0 .rise)
        (await .handChain 0 [2, 3, 6] (inbound 2 (List.replicate 8 (entry true)) four))) = some ⟨.queueFull, 2, 8⟩) := by
  decide +kernel

/-- P1's Take Inbound on the entry for record 3, k bytes delivered. -/
def taking (void : Bool) (k : Nat) : State :=
  put 1 (.body .takeInbound [] (.inbound (some (entry false)) k)) (inbound 1 [entry void, entry true] four)

theorem witness_TakeInbound :
    (AtCommand (put 1 .command four) 1 ∧ four.isEnabled 1 = true) ∧
    (∀ k ∈ [0, 7, 8], InBody (taking false k) 1 .takeInbound [] (.inbound (some (entry false)) k)) ∧
    (taking false 7).pnDO 1 = some 5 ∧
    outcome 1 (exec (.takeInbound 1 .rise) (taking false 7)) = some ⟨.incomplete, 7, 2⟩ ∧
    (taking true 8).inqs[(1 : Port)].entries = [entry true, entry true] ∧
    outcome 1 (exec (.takeInbound 1 .rise) (taking true 8)) = some ⟨.void, 0x0303, 1⟩ ∧
    ((entry false).void = false ∧ (taking false 8).recs[(3 : ChainNo)].gen = (entry false).ref.gen) ∧
    outcome 1 (exec (.takeInbound 1 .rise) (taking false 8)) = some ⟨.ok, 0x0303, 1⟩ ∧
    look (fun t => t.recs[(3 : ChainNo)].life) (exec (.takeInbound 1 .rise) (taking false 8)) =
      some (.delivering (delivery 0 6 0 0 0) label 0xBEEF) ∧
    InBody (put 1 (.body .takeInbound [] (.inbound none 0)) four) 1 .takeInbound [] (.inbound none 0) ∧
    outcome 1 (exec (.takeInbound 1 .rise) (put 1 (.body .takeInbound [] (.inbound none 0)) four)) =
      some ⟨.empty, 0, 0⟩ := by
  decide +kernel

/-- P2 is the sole participant left of record 3. -/
def sole : State := chain 3 (.delivering (delivery 0 4 1 0 0) label 0xBEEF) 5 [7] (charged 0 4 4 four)

theorem witness_ReleaseChain :
    (∀ x ∈ ([0, 1, 2] : List Byte), Waits (await .releaseChain 2 [3, 3, x] four) 2 .releaseChain [3, 3, x]) ∧
    (Names four 3 3 3 ∧ inSet (delivery 2 4 0 0 0).hold 2 = true ∧ inSet (delivery 2 4 0 0 0).pend 2 = false) ∧
    outcome 2 (exec (.releaseChain 2 .rise) (await .releaseChain 2 [3, 3, 2] four)) = some ⟨.range, 0, 0⟩ ∧
    outcome 2 (exec (.releaseChain 2 .rise) (await .releaseChain 2 [3, 3, 0] four)) = some ⟨.ok, 1, 0⟩ ∧
    outcome 2 (exec (.releaseChain 2 .rise) (await .releaseChain 2 [3, 3, 1] sole)) = some ⟨.ok, 0, 1⟩ ∧
    look (fun t => t.notqs[(0 : Port)]) (exec (.releaseChain 2 .rise) (await .releaseChain 2 [3, 3, 1] sole)) =
      some [.consumed ⟨3, 3⟩ 0x1234 1 1 0 2] := by
  decide +kernel

theorem witness_AdoptChain :
    (Waits (await .adoptChain 2 [3, 3] sole) 2 .adoptChain [3, 3] ∧ Names sole 3 3 3 ∧
      inSet (delivery 0 4 1 0 0).hold 2 = true ∧ (delivery 0 4 1 0 0).origin ≠ 2 ∧ (delivery 0 4 1 0 0).hold = only 2 ∧
      (delivery 0 4 1 0 0).pend = 0 ∧ label.hops < 7 ∧ sole.chChains[(2 : Port)] < sole.committed.chainQuota 2 ∧
      sole.chBlocks[(2 : Port)] + 1 ≤ sole.committed.blockQuota 2) ∧
    outcome 2 (exec (.adoptChain 2 .rise) (await .adoptChain 2 [3, 3] sole)) = some ⟨.ok, 1, 1⟩ ∧
    look (fun t => (t.chChains, t.chBlocks)) (exec (.adoptChain 2 .rise) (await .adoptChain 2 [3, 3] sole)) =
      some (#v[3, 0, 1, 0], #v[3, 0, 1, 0]) ∧
    outcome 2 (exec (.adoptChain 2 .rise) (await .adoptChain 2 [3, 3] four)) = some ⟨.notSole, 1, 1⟩ ∧
    outcome 2 (exec (.adoptChain 2 .rise)
      (await .adoptChain 2 [3, 3] (chain 3 (.delivering (delivery 0 4 1 0 0) ⟨0, 7⟩ 0) 5 [7] sole))) =
      some ⟨.hops, 7, 0⟩ ∧
    outcome 2 (exec (.adoptChain 2 .rise) (await .adoptChain 2 [3, 3] (charged 2 0 16 sole))) =
      some ⟨.quotaChains, 16, 16⟩ ∧
    outcome 2 (exec (.adoptChain 2 .rise) (await .adoptChain 2 [3, 3] (charged 2 128 15 sole))) =
      some ⟨.quotaBlocks, 128, 128⟩ := by
  decide +kernel

theorem witness_RecallChain :
    (Waits (await .recallChain 0 [3, 3] four) 0 .recallChain [3, 3] ∧ Names four 3 3 3 ∧ (delivery 2 4 0 0 0).origin = 0 ∧
      (delivery 2 4 0 0 0).hold ≠ 0 ∧ (delivery 6 0 0 0 0).hold = 0) ∧
    outcome 0 (exec (.recallChain 0 .rise) (await .recallChain 0 [3, 3] four)) = some ⟨.taken, 1, 1⟩ ∧
    outcome 0 (exec (.recallChain 0 .rise) (await .recallChain 0 [3, 3] (inbound 1 [entry false] (inbound 2 [entry false]
      (chain 3 (.delivering (delivery 6 0 0 0 0) label 0xBEEF) 5 [7] four))))) = some ⟨.ok, 2, 0⟩ := by
  decide +kernel

/-! ### Notices and attention -/

theorem witness_NoticePlaced :
    without3.isEnabled 3 = false ∧ base.isEnabled 3 = true ∧ base.notqs[(3 : Port)].length < 8 ∧
    (let s := base.setNotq 3 (List.replicate 8 .claimLapsed)
     s.isEnabled 3 = true ∧ 8 ≤ s.notqs[(3 : Port)].length ∧ (s.offer 3 .claimLapsed).edges[(3 : Port)] = 0x20) := by
  decide +kernel

/-- P3's Take Notice on its head notice, k bytes delivered. -/
def noticing (k : Nat) : State :=
  put 3 (.body .takeNotice [] (.notice (some .claimLapsed) k)) (base.setNotq 3 [.claimLapsed, .claimLapsed])

theorem witness_TakeNotice :
    (AtCommand (put 3 .command base) 3 ∧ base.isEnabled 3 = true) ∧
    (∀ k ∈ [0, 9, 10], InBody (noticing k) 3 .takeNotice [] (.notice (some .claimLapsed) k)) ∧
    ((noticing 0).pnDO 3 = some 5 ∧ (noticing 9).pnDO 3 = some 0) ∧
    outcome 3 (exec (.takeNotice 3 .rise) (noticing 9)) = some ⟨.incomplete, 9, 2⟩ ∧
    (noticing 10).notqs[(3 : Port)] = [.claimLapsed, .claimLapsed] ∧
    outcome 3 (exec (.takeNotice 3 .rise) (noticing 10)) = some ⟨.ok, 5, 1⟩ ∧
    InBody (put 3 (.body .takeNotice [] (.notice none 0)) base) 3 .takeNotice [] (.notice none 0) ∧
    outcome 3 (exec (.takeNotice 3 .rise) (put 3 (.body .takeNotice [] (.notice none 0)) base)) =
      some ⟨.empty, 0, 0⟩ := by
  decide +kernel

theorem witness_AtnLine :
    AtReset State.reset ∧
    (let s := { base with edges := Vector.replicate 4 0x3C, enables := Vector.replicate 4 0x0F }
     s.requests 0 = 0x3C ∧ s.atnLow 0 = true ∧ s.topReason 0 = 4) := by
  unfold AtReset; decide +kernel

theorem witness_EnablesAndAcknowledge :
    (∀ m ∈ ([63, 64] : List Byte), Waits (await .setEnables 1 [m] base) 1 .setEnables [m] ∧
      Waits (await .acknowledgeAttention 1 [m] base) 1 .acknowledgeAttention [m]) ∧
    outcome 1 (exec (.setEnables 1 .rise) (await .setEnables 1 [64] base)) = some ⟨.range, 0, 0⟩ ∧
    outcome 1 (exec (.setEnables 1 .rise) (await .setEnables 1 [63] base)) = some ⟨.ok, 63, 0⟩ ∧
    outcome 1 (exec (.acknowledgeAttention 1 .rise) (await .acknowledgeAttention 1 [64] base)) = some ⟨.range, 0, 0⟩ ∧
    outcome 1 (exec (.acknowledgeAttention 1 .rise)
      (await .acknowledgeAttention 1 [0x14] { inbound 1 [entry false] base with edges := Vector.replicate 4 0x1C })) =
      some ⟨.ok, 0x14, 0x09⟩ := by
  decide +kernel

/-! ### Settings -/

theorem witness_ClaimAndAbandon :
    (Waits (await .claimSettings 2 [] base) 2 .claimSettings [] ∧ base.claim = none) ∧
    outcome 2 (exec (.claimSettings 2 .rise) (await .claimSettings 2 [] base)) = some ⟨.ok, 32, 0⟩ ∧
    outcome 1 (exec (.claimSettings 1 .rise) (await .claimSettings 1 [] claimed)) = some ⟨.claimHeld, 2, 0⟩ ∧
    outcome 2 (exec (.claimSettings 2 .rise) (await .claimSettings 2 [] claimed)) = some ⟨.wrongState, 2, 0⟩ ∧
    (Waits (await .abandonSettings 1 [] claimed) 1 .abandonSettings [] ∧ ∀ cl ∈ claimed.claim, cl.holder ≠ 1) ∧
    outcome 1 (exec (.abandonSettings 1 .rise) (await .abandonSettings 1 [] claimed)) = some ⟨.noClaim, 0, 0⟩ ∧
    outcome 2 (exec (.abandonSettings 2 .rise) (await .abandonSettings 2 [] claimed)) = some ⟨.ok, 0, 0⟩ := by
  decide +kernel

theorem witness_WriteSetting :
    (∀ id ∈ ([0, 1, 23, 24] : List Byte),
      Waits (await .writeSetting 2 [id, 0, 15] claimed) 2 .writeSetting [id, 0, 15]) ∧
    (∀ cl ∈ claimed.claim, cl.holder ≠ 1) ∧ claimed.claim = some ⟨2, claimed.committed⟩ ∧
    outcome 1 (exec (.writeSetting 1 .rise) (await .writeSetting 1 [1, 0, 15] claimed)) = some ⟨.noClaim, 0, 0⟩ ∧
    (legalSetting 0 15 = false ∧ legalSetting 24 15 = false ∧ legalSetting 23 16 = false ∧ legalSetting 23 15 = true ∧
      legalSetting 1 512 = true ∧ legalSetting 1 513 = false) ∧
    outcome 2 (exec (.writeSetting 2 .rise) (await .writeSetting 2 [24, 0, 15] claimed)) = some ⟨.range, 24, 15⟩ ∧
    outcome 2 (exec (.writeSetting 2 .rise) (await .writeSetting 2 [23, 0, 16] claimed)) = some ⟨.range, 23, 16⟩ ∧
    outcome 2 (exec (.writeSetting 2 .rise) (await .writeSetting 2 [1, 2, 0] claimed)) = some ⟨.ok, 1, 0x200⟩ := by
  decide +kernel

/-- P2 holds the claim, one field of its staged copy changed. -/
def staging (i : Fin 23) (v : Word) : State :=
  { four with claim := some ⟨2, (setting i v four).committed⟩, claimLease := .running 32 }

theorem witness_CommitRefused :
    Waits (await .commitSettings 2 [] (staging 10 16)) 2 .commitSettings [] ∧
    outcome 1 (exec (.commitSettings 1 .rise) (await .commitSettings 1 [] (staging 10 16))) = some ⟨.noClaim, 0, 0⟩ ∧
    ((setting 10 16 four).committed.depth 2 ≠ four.committed.depth 2 ∧
      outcome 2 (exec (.commitSettings 2 .rise) (await .commitSettings 2 [] (inbound 2 [entry true] (staging 10 16)))) =
        some ⟨.badSetting, 0x0B, 1⟩) ∧
    ((∀ q : Port, (setting 19 32 four).committed.depth q = four.committed.depth q) ∧
      (setting 19 32 four).committed.highMark ≤ (setting 19 32 four).committed.lowMark ∧
      outcome 2 (exec (.commitSettings 2 .rise) (await .commitSettings 2 [] (staging 19 32))) =
        some ⟨.badSetting, 0x14, 32⟩) ∧
    (setting 22 0 four).committed.enableMask = 0 ∧
    outcome 2 (exec (.commitSettings 2 .rise) (await .commitSettings 2 [] (staging 22 0))) =
      some ⟨.badSetting, 0x17, 0⟩ := by
  decide +kernel

/-- P0 is disabled; P1 holds the claim, and its staged copy enables P0 and disables P2, the last participant of the chain
that P0 originated. -/
def swap : State :=
  { setting 22 14 (chain 3 (.delivering (delivery 0 4 1 0 0) label 0xBEEF) 5 [7] (charged 0 4 4 four)) with
    claim := some ⟨1, (setting 22 11 four).committed⟩
    claimLease := .running 32 }

/-- With several ports or chains a withdrawal takes them in a free order; with one, or none, it evaluates. -/
theorem witness_CommitApplies :
    (Waits (await .commitSettings 2 [] (staging 17 3)) 2 .commitSettings [] ∧
      (staging 17 3).claim = some ⟨2, (setting 17 3 four).committed⟩ ∧
      (∀ q : Port, (setting 17 3 four).committed.depth q = (staging 17 3).committed.depth q) ∧
      (setting 17 3 four).committed.lowMark < (setting 17 3 four).committed.highMark ∧
      (setting 17 3 four).committed.enableMask ≠ 0 ∧
      (staging 17 3).committed.enableMask &&& ~~~(setting 17 3 four).committed.enableMask = 0) ∧
    outcome 2 (exec (.commitSettings 2 .rise) (await .commitSettings 2 [] (staging 17 3))) = some ⟨.ok, 1, 0⟩ ∧
    (inSet (staging 22 7).committed.enableMask 3 = true ∧ inSet (setting 22 7 four).committed.enableMask 3 = false) ∧
    outcome 2 (exec (.commitSettings 2 .rise) (await .commitSettings 2 [] (staging 22 7))) = some ⟨.ok, 1, 8⟩ ∧
    look (fun t => t.pius[(3 : Port)].result) (exec (.commitSettings 2 .rise) (await .commitSettings 2 [] (staging 22 7))) =
      some { seq := 0, command := 0x42, ending := ⟨.disabled, 0, 0⟩ } ∧
    (staging 22 7).committed.enableMask &&& ~~~(setting 22 7 four).committed.enableMask = only 3 ∧
    look (fun t => (t.recs[(3 : ChainNo)].life, t.notqs[(0 : Port)], t.edges[(0 : Port)]))
      (exec (.commitSettings 1 .rise) (await .commitSettings 1 [] swap)) = some (.vacant, [], 0x08) ∧
    look (fun t => (t.recs[(3 : ChainNo)].life, t.notqs[(0 : Port)]))
      (exec (.commitSettings 1 .rise) (await .commitSettings 1 [] { swap with committed := four.committed })) =
      some (.vacant, [.consumed ⟨3, 3⟩ 0x1234 1 0 1 2]) := by
  decide +kernel

/-! ### Withdrawal -/

theorem witness_PortResetWithdraws :
    Waits (await .portReset 2 [] four) 2 .portReset [] ∧
    look (fun t => t.pius[(2 : Port)].result) (exec (.portReset 2 .rise) (await .portReset 2 [] four)) =
      some { seq := 0, command := 0x5F, ending := ⟨.ok, 0, 0⟩ } ∧
    look (fun t => t.recs[(3 : ChainNo)].life) (exec (.portReset 2 .rise) (await .portReset 2 [] four)) =
      some (.delivering (delivery 2 0 0 0 1) label 0xBEEF) ∧
    look (fun t => t.recs[(3 : ChainNo)].life) (exec (.portReset 2 .rise) (await .portReset 2 [] sole)) = some .vacant ∧
    look (fun t => t.notqs[(0 : Port)]) (exec (.portReset 2 .rise) (await .portReset 2 [] sole)) =
      some [.consumed ⟨3, 3⟩ 0x1234 1 0 1 2] ∧
    (∀ n : ChainNo, sole.recs[n].life.touches 2 = true ↔ n = 3) ∧
    ((sole.withoutPort 2 3).clearQ = [7] ∧ (sole.withoutPort 2 3).notqs[(0 : Port)] = [.consumed ⟨3, 3⟩ 0x1234 1 0 1 2]) ∧
    sole.withdraw 2 portResetResult = (sole.withoutPort 2 3).stripped 2 portResetResult ∧
    (∀ n : ChainNo, four.recs[n].life.touches 3 = false) ∧
    reading.withdraw 2 disabledResult = (reading.withoutPort 2 3).stripped 2 disabledResult ∧
    (reading.withdraw 2 disabledResult).pius[(2 : Port)].link = .body .readData [3, 3] .ended ∧
    four.recs[(0 : ChainNo)].life.owner = some 0 ∧ four.recs[(3 : ChainNo)].life.touches 3 = false ∧
    (∀ cl ∈ claimed.claim, cl.holder = 2) ∧ (∀ cl ∈ claimed.claim, cl.holder ≠ 1) := by
  decide +kernel

/-! ### Time and expiries -/

theorem witness_TickCounts :
    (base.ready = true ∧ base.committed.tickRatio = 512 ∧ base.committed.tickRatio ≤ 511 + 1) ∧
    look (fun t => t.divider) (exec .tick { base with divider := 511 }) = some 0 ∧
    look (fun t => t.leases[(0 : ChainNo)])
      (exec .refclkPeriod { base with divider := 511, leases := base.leases.set 0 (.running 1 3) }) = some (.raised 3) ∧
    (510 + 1 < base.committed.tickRatio ∧ look id (exec .tick { base with divider := 510 }) = some { base with divider := 510 }) ∧
    (State.reset.ready = false ∧ look id (exec .tick State.reset) = some State.reset ∧ look id (exec .refclkPeriod State.reset) = some State.reset) := by
  decide +kernel

/-- Record n's lease has signalled its expiry, for generation g. -/
def expired (n : ChainNo) (g : Gen) : State := four.setLease n (.raised g)

theorem witness_Expiries :
    (∀ n ∈ ([0, 1, 2] : List ChainNo), (expired n 3).leases[n] = .raised 3 ∧ (expired n 3).recs[n].gen = 3 ∧
      (expired n 3).recs[n].life.owner = some 0 ∧ (expired n 3).recs[n].life.label = some label) ∧
    look (fun t => t.notqs[(0 : Port)]) (exec (.chainLeaseExpiry 2) (expired 2 3)) =
      some [.expired ⟨2, 3⟩ 0x1234 .sealed 0 0] ∧
    ((expired 3 3).leases[(3 : ChainNo)] = .raised 3 ∧
      (expired 3 3).recs[(3 : ChainNo)].life = .delivering (delivery 2 4 0 0 0) label 0xBEEF) ∧
    look (fun t => (t.notqs, t.recs[(3 : ChainNo)].gen)) (exec (.chainLeaseExpiry 3) (expired 3 3)) =
      some (#v[[.expired ⟨3, 3⟩ 0x1234 .delivering 1 1], [], [.revoked ⟨3, 3⟩ 0x1234 0], []], 4) ∧
    ((expired 0 2).recs[(0 : ChainNo)].gen ≠ 2 ∧ (expired 63 0).recs[(63 : ChainNo)].life = .vacant) ∧
    look id (exec (.chainLeaseExpiry 0) (expired 0 2)) = some four ∧
    look id (exec .claimLeaseExpiry { claimed with claimLease := .raised }) = some (base.setNotq 2 [.claimLapsed]) ∧
    look id (exec .claimLeaseExpiry { base with claimLease := .raised }) = some base ∧
    look id (exec (.chainLeaseExpiry 0) four) = some four ∧
    look id (exec (.chainLeaseExpiry 0) (four.setLease 0 (.running 1 3))) = some (four.setLease 0 (.running 1 3)) ∧
    (claimed.claimLease ≠ .raised ∧ look id (exec .claimLeaseExpiry claimed) = some claimed) := by
  decide +kernel

/-- The Clear Engine at a line of block 9, two more blocks waiting. -/
def clearing (line : Nat) : State :=
  { base with clearQ := [4, 7], clearEng := some { block := 9, fill := 0xE5, line := line } }

theorem witness_ClearingProceeds :
    (base.clearEng = none ∧ ({ base with clearQ := [4, 7] } : State).clearQ = [4, 7]) ∧
    look (fun t => (t.clearQ, t.clearEng)) (exec .clearingStart { base with clearQ := [4, 7] }) =
      some ([7], some { block := 4, fill := 0, line := 0 }) ∧
    (∀ line ∈ [0, 6, 7], (clearing line).nextGrant = some .clearEngine ∧ StoreInv (clearing line)) ∧
    look (fun t => (t.store.length, t.clearEng.map (·.line))) (exec .clearLineWrite (clearing 6)) = some (16, some 7) ∧
    look (fun t => (t.free.getLast?, t.clearQ, t.clearEng.map (·.block))) (exec .clearLineWrite (clearing 7)) =
      some (some 9, [7], some 4) ∧
    look id (exec .clearingStart (clearing 0)) = some (clearing 0) ∧ look id (exec .clearingStart base) = some base ∧
    look id (exec .clearLineWrite base) = some base := by
  unfold StoreInv; decide +kernel

/-! ### Invariants -/

/-- A state with something in every place the invariants speak of: record 0 OPEN under P0, 1 SEALING under P1 and at the
engine, 2 SEALED under P0, 3 handed by P0, pending at P1, held and being read by P2; P3 disabled; P1 claims; a block waits
for clearing and one is being cleared; P0's link waits for an operand byte. -/
def busy : State :=
  { base with
    pending := [.refclkPeriod]
    free := (List.range 512).drop 6
    clearQ := [4]
    clearEng := some { block := 5, fill := 0, line := 3 }
    recs := (((base.recs.set 0 { gen := 3, life := .opened 0 label, length := 130, blocks := [0, 1] }).set 1
      { gen := 1, life := .sealing 1 label, length := 20, blocks := [2] }).set 2
      { gen := 15, life := .sealed 0 label 0xFFFF, length := 0, blocks := [] }).set 3
      { gen := 0, life := .delivering (delivery 2 4 0 0 0) label 0xBEEF, length := 5, blocks := [3] }
    chBlocks := #v[3, 1, 0, 0]
    chChains := #v[3, 1, 0, 0]
    leases := (base.leases.set 0 (.running 64 3)).set 3 (.raised 0)
    sealEng := some (SealRun.start ⟨1, 1⟩ 20)
    inqs := base.inqs.set 1
      { entries := [{ entry true with ref := ⟨9, 0⟩ }, { entry false with ref := ⟨3, 0⟩ }], posted := 1, taken := 7,
        postedLap := 0, takenLap := 255 }
    notqs := base.notqs.set 0 (List.replicate 8 .claimLapsed)
    claim := some ⟨1, base.committed⟩
    claimLease := .running 1
    store := [(0, 0xAA), (65535, 0xBB)]
    committed := { fields := base.committed.fields.set 22 7 }
    pius := (base.pius.set 0 { base.pius[(0 : Port)] with sel := true, link := .operand .openChain [1] }).set 2
      { sel := true, link := .body .readData [3, 0, 0, 0] .streaming, wire := Wire.idle, early := false,
        result := ResultRec.reset, staging := fullLine, stream := some (Stream.initial .read ⟨3, 0⟩ 0) } }

theorem look_next {a : Answer} {t : State} (h : look id a = some t) : a = .next t := by
  cases a <;> simp_all [look]

/-- The step the witnesses below take: one REFCLK period. -/
theorem busy_steps : step busy = .next { busy with pending := [], divider := 1 } :=
  look_next (by decide +kernel)

theorem busy_streams : StreamsInv busy ∧ LinksInv busy := by
  have h : ∀ p : Port, ∀ st ∈ busy.pius[p].stream,
      (busy.recs[st.ref.num].gen = st.ref.gen ∧ busy.recs[st.ref.num].life ≠ .vacant ∧ st.kind = .read) ∧
      busy.pius[p].link = .body .readData [3, 0, 0, 0] .streaming ∧ st.closing = false ∧ st.earned = none := by
    decide +kernel
  refine ⟨fun p st hs _ _ => ⟨(h p st hs).1.1, (h p st hs).1.2.1, fun hk => absurd (h p st hs).1.2.2 hk⟩,
    operandsInv_of (by decide +kernel), fun p st hs => ?_⟩
  obtain ⟨⟨_, _, hk⟩, hl, hc, he⟩ := h p st hs
  refine ⟨fun c ops e => ?_, fun c ops b e => ?_, fun e => absurd he e⟩
  · rw [hl] at e; exact absurd e (by simp)
  · rw [hl] at e
    simp only [Link.body.injEq] at e
    exact ⟨e.2.2.symm, by rw [← e.1, hk]; rfl, hc⟩

theorem witness_StoreStaysCanonical : (∃ t, step busy = .next t) ∧ StoreInv busy :=
  ⟨⟨_, busy_steps⟩, by unfold StoreInv; decide +kernel⟩

theorem witness_BlocksConserved : (∃ t, step busy = .next t) ∧ BlocksInv busy :=
  ⟨⟨_, busy_steps⟩, by decide +kernel, by decide +kernel, busy_streams⟩

theorem witness_ChargesAgree : (∃ t, step busy = .next t) ∧ ChargesInv busy :=
  ⟨⟨_, busy_steps⟩, by decide +kernel, busy_streams⟩

theorem witness_DeliveriesAgree : (∃ t, step busy = .next t) ∧ DeliveriesInv busy := by
  have h : ∀ n : ChainNo, ∀ d ∈ busy.recs[n].life.delivery, d = delivery 2 4 0 0 0 := by decide +kernel
  refine ⟨⟨_, busy_steps⟩, fun n d hd => ?_, by decide +kernel⟩
  rw [h n d hd]
  unfold Delivery.ok
  decide +kernel

theorem witness_SealQueueExact : (∃ t, step busy = .next t) ∧ SealInv busy :=
  ⟨⟨_, busy_steps⟩, by decide +kernel, by decide +kernel⟩

theorem busy_settings : SettingsInv busy := by
  have h : ∀ cl ∈ busy.claim, ∀ i : Fin 23, legalSetting (i.val + 1) cl.staged.fields[i].toNat = true := by decide +kernel
  have hc : busy.claimLease = .running 1 := by decide +kernel
  refine ⟨?_, by decide +kernel, by decide +kernel, h, by decide +kernel, fun c e => ?_, by decide +kernel⟩
  · unfold Settings.inRange
    decide +kernel
  · rw [hc] at e
    cases e
    decide

theorem witness_TimersAndSettingsKept : (∃ t, step busy = .next t) ∧ LeasesInv busy := by
  have h : ∀ n : ChainNo, busy.leases[n] = .none ∨ (busy.leases[n] = .running 64 3 ∧ n = 0) ∨
      (busy.leases[n] = .raised 0 ∧ n = 3) := by decide +kernel
  have hr : busy.recs[(0 : ChainNo)].gen = 3 ∧ busy.recs[(0 : ChainNo)].life ≠ .vacant ∧
      busy.recs[(3 : ChainNo)].gen = 0 ∧ busy.recs[(3 : ChainNo)].life ≠ .vacant := by decide +kernel
  refine ⟨⟨_, busy_steps⟩, busy_settings, fun n c g e => ?_, fun n g e => ?_⟩
  · rcases h n with h | ⟨h, rfl⟩ | ⟨h, rfl⟩ <;> rw [h] at e <;> cases e
    exact ⟨by decide, by decide, hr.1.symm, hr.2.1⟩
  · rcases h n with h | ⟨h, rfl⟩ | ⟨h, rfl⟩ <;> rw [h] at e <;> cases e
    exact ⟨hr.2.2.1.symm, hr.2.2.2⟩

theorem witness_QueueCountersAgree : (∃ t, step busy = .next t) ∧ QueuesInv busy :=
  ⟨⟨_, busy_steps⟩, busy_settings, by unfold InQueue.counts; decide +kernel⟩

theorem witness_DisabledPortStripped : (∃ t, step busy = .next t) ∧ DisabledInv busy := by
  refine ⟨⟨_, busy_steps⟩, fun p hp => ?_⟩
  have h3 : p = 3 := by revert hp; revert p; decide +kernel
  subst h3
  have hl : busy.pius[(3 : Port)].link = .deselected := by decide +kernel
  refine ⟨by decide +kernel, by decide +kernel, by decide +kernel, by decide +kernel, by decide +kernel, ?_,
    by decide +kernel, fun c ops b e => ?_⟩
  · show ∀ cl ∈ busy.claim, cl.holder ≠ 3
    decide +kernel
  · rw [hl] at e; exact absurd e (by simp)

end Sys2Proof.Tests
end

section
/-! PROOFS. What an answer leaves: a property of the state that no PIU has a part in, carried through the course of a
link command by what its two effects do to it. -/

namespace Sys2Proof.Machine

/-- Every next state that the answer names has the property; a fault and a refusal name none. -/
def Leaves (P : State → Prop) (a : Answer) : Prop := ∀ t, a = .next t → P t

@[simp] theorem leaves_next (P : State → Prop) (t : State) : Leaves P (.next t) ↔ P t := by simp [Leaves]
@[simp] theorem leaves_fault (P : State → Prop) (f : Fault) : Leaves P (.fault f) := by simp [Leaves]
@[simp] theorem leaves_refused (P : State → Prop) (r : Refusal) : Leaves P (.refused r) := by simp [Leaves]

/-- The property says nothing of any PIU. -/
def IgnoresPius (P : State → Prop) : Prop := ∀ (s : State) (p : Port) (u : Piu), P (s.setPiu p u) ↔ P s

section Course
variable {P : State → Prop} (hP : IgnoresPius P)
include hP

theorem IgnoresPius.setLink (s : State) (p : Port) (l : Link) : P (s.setLink p l) ↔ P s := hP _ _ _
theorem IgnoresPius.setWire (s : State) (p : Port) (w : Wire) : P (s.setWire p w) ↔ P s := hP _ _ _
theorem IgnoresPius.byteEnd (s : State) (p : Port) : P (s.byteEnd p) ↔ P s := hP _ _ _
theorem IgnoresPius.deselect (s : State) (p : Port) : P (s.deselect p) ↔ P s := hP _ _ _
theorem IgnoresPius.record (s : State) (p : Port) (c : Byte) (e : Ending) : P (s.record p c e) ↔ P s := hP _ _ _

theorem codeWhole_leaves {c : Cmd} {p : Port} {enter : List Byte → State → State} {s : State} (hs : P s)
    (henter : P (enter [] s)) : Leaves P (codeWhole c p enter s) := by
  unfold codeWhole
  repeat' split
  all_goals simp [hP.setLink, hs, henter]

theorem operandWhole_leaves {c : Cmd} {p : Port} {ops : List Byte} {x : Byte} {enter : List Byte → State → State}
    {s : State} (hs : P s) (henter : ∀ ops, P (enter ops s)) : Leaves P (operandWhole c p ops x enter s) := by
  unfold operandWhole
  split
  · simpa [hP.setLink] using hs
  · simpa using henter _

theorem ignoredBeat_leaves {p : Port} {b : Beat} {s : State} (hs : P s) : Leaves P (ignoredBeat p b s) := by
  cases b <;> simp [ignoredBeat, hP.deselect, hs]

theorem bodyRise_keeps {c : Cmd} {p : Port} {ops : List Byte} {b : Body} {close : List Byte → Body → State → State}
    {s : State} (hs : P s) (hclose : ∀ ops b, P (close ops b (s.deselect p))) : P (bodyRise c p ops b close s) := by
  cases b
  case ended => exact (hP.deselect s p).mpr hs
  case refused e => exact (hP.record _ _ _ _).mpr ((hP.deselect s p).mpr hs)
  all_goals exact hclose _ _

/-- The course of a command leaves the property if the entry into BODY and the close at select rise do. -/
theorem linkBeat_leaves {c : Cmd} {p : Port} {b : Beat} {enter : List Byte → State → State}
    {close : List Byte → Body → State → State} {s : State} (hs : P s) (henter : ∀ ops, P (enter ops s))
    (hclose : ∀ ops body, P (close ops body (s.deselect p))) : Leaves P (linkBeat c p b enter close s) := by
  unfold linkBeat
  split
  · simp
  split
  · simpa using hs
  split
  · simp
  split
  · exact ignoredBeat_leaves hP hs
  · split
    · exact ignoredBeat_leaves hP hs
    · simp
  · cases b
    case code => exact codeWhole_leaves hP hs (henter [])
    all_goals simp
  · cases b
    case operand =>
      dsimp only
      split
      · exact operandWhole_leaves hP hs henter
      · simp
    all_goals simp
  · cases b
    case pass =>
      dsimp only
      split
      · simpa [hP.setLink] using hs
      · simp
    case rise =>
      dsimp only
      split
      · simpa using bodyRise_keeps hP hs hclose
      · simp
    all_goals simp

theorem queryBeat_leaves {c : Cmd} {p : Port} {b : Beat} {always : Bool}
    {copy : List Byte → State → List Byte × List Byte} {s : State} (hs : P s) :
    Leaves P (queryBeat c p b always copy s) := by
  refine linkBeat_leaves hP hs (fun ops => ?_) (fun _ _ => (hP.deselect s p).mpr hs)
  split <;> exact (hP.setLink _ _ _).mpr hs

theorem actionBeat_leaves {c : Cmd} {p : Port} {b : Beat} {act : List Byte → State → State} {s : State} (hs : P s)
    (hact : ∀ ops, P (act ops (s.deselect p))) : Leaves P (actionBeat c p b act s) := by
  refine linkBeat_leaves hP hs (fun ops => (hP.setLink _ _ _).mpr hs) (fun ops _ => ?_)
  split
  · exact hact ops
  · exact (hP.record _ _ _ _).mpr ((hP.deselect s p).mpr hs)

theorem recordedBeat_leaves {c : Cmd} {p : Port} {b : Beat} {act : List Byte → State → State × Ending} {s : State}
    (hs : P s) (hact : ∀ ops, P (act ops (s.deselect p)).1) : Leaves P (recordedBeat c p b act s) :=
  actionBeat_leaves hP hs fun ops => (hP.record _ _ _ _).mpr (hact ops)

/-- An action on a chain has its effect on the record that the checks of R11 and R12 have passed, and on no other. -/
theorem chainBeat_leaves {c : Cmd} {p : Port} {b : Beat} {act : ChainNo → List Byte → State → State × Ending} {s : State}
    (hs : P s) (hact : ∀ n ops, (s.deselect p).chainCheck c p ops = .ok n → P (act n ops (s.deselect p)).1) :
    Leaves P (chainBeat c p b act s) := by
  refine recordedBeat_leaves hP hs fun ops => ?_
  split
  · exact (hP.deselect s p).mpr hs
  · next n hn => exact hact n ops hn

theorem takeBeat_leaves {c : Cmd} {p : Port} {b : Beat} {fixed : State → Body}
    {decide : Body → State → State × Ending} {s : State} (hs : P s)
    (hdecide : ∀ body, P (decide body (s.deselect p)).1) : Leaves P (takeBeat c p b fixed decide s) := by
  refine linkBeat_leaves hP hs (fun ops => ?_) (fun _ body => (hP.record _ _ _ _).mpr (hdecide body))
  split <;> exact (hP.setLink _ _ _).mpr hs

theorem dataByteIn_leaves {c : Cmd} {p : Port} {take : Stream → State → State} {s : State} (hs : P s)
    (htake : ∀ st, P (take st (s.byteEnd p))) : Leaves P (dataByteIn c p take s) := by
  have hb := (hP.byteEnd s p).mpr hs
  unfold dataByteIn
  repeat' split
  all_goals simp [hs, hb, htake]

theorem holdPnDO_leaves {p : Port} {level : Option Bool} {a : Answer} (ha : Leaves P a) :
    Leaves P (Answer.holdPnDO p level a) := by
  cases a with
  | next t => simpa [Answer.holdPnDO, hP.setWire] using ha
  | fault f => simp [Answer.holdPnDO]
  | refused r => simp [Answer.holdPnDO]

end Course

end Sys2Proof.Machine
end

section
/-! PROOFS. Port sets, queues and deliveries, read port by port. -/

namespace Sys2Proof.Machine

/-! ### Port sets -/

theorem portSet_ext {a b : PortSet} (h : ∀ p, inSet a p = inSet b p) : a = b :=
  BitVec.eq_of_getLsbD_eq fun i hi => h ⟨i, hi⟩

@[simp] theorem inSet_zero (p : Port) : inSet 0#4 p = false := by simp [inSet]
@[simp] theorem inSet_and (a b : PortSet) (p : Port) : inSet (a &&& b) p = (inSet a p && inSet b p) := by simp [inSet]
@[simp] theorem inSet_or (a b : PortSet) (p : Port) : inSet (a ||| b) p = (inSet a p || inSet b p) := by simp [inSet]
@[simp] theorem inSet_compl (a : PortSet) (p : Port) : inSet (~~~a) p = !inSet a p := by simp [inSet]
@[simp] theorem inSet_only (p q : Port) : inSet (only p) q = decide (p = q) := by
  simp [inSet, only, Fin.ext_iff, eq_comm]
@[simp] theorem inSet_without (m : PortSet) (p q : Port) : inSet (without m p) q = (inSet m q && !decide (p = q)) := by
  simp [without]
@[simp] theorem inSet_withPort (m : PortSet) (p q : Port) : inSet (withPort m p) q = (inSet m q || decide (p = q)) := by
  simp [withPort]

theorem portSet_eq_zero {m : PortSet} : m = 0 ↔ ∀ p, inSet m p = false :=
  ⟨fun h p => by simp [h], fun h => portSet_ext fun p => by simp [h]⟩

theorem card_without : ∀ (m : PortSet) (p : Port), card (without m p) + (if inSet m p then 1 else 0) = card m := by
  decide

theorem card_withPort : ∀ (m : PortSet) (p : Port), card (withPort m p) = card m + (if inSet m p then 0 else 1) := by
  decide

/-! ### Deliveries (R4) -/

theorem Delivery.finished_iff (d : Delivery) : d.finished = true ↔ d.pend = 0 ∧ d.hold = 0 := by
  simp [Delivery.finished]

/-- R4, port by port. -/
theorem Delivery.ok_iff (d : Delivery) : d.ok ↔
    (∀ p, inSet d.pend p = true → inSet d.hold p = false) ∧
    (∀ p, inSet d.pend p = true ∨ inSet d.hold p = true → inSet d.dests p = true) ∧
    inSet d.dests d.origin = false ∧
    d.accepted + d.refused + d.withdrawn + card d.pend + card d.hold = card d.dests ∧ d.finished = false := by
  have hfin : (d.pend ≠ 0 ∨ d.hold ≠ 0) ↔ d.finished = false := by
    rw [← Bool.not_eq_true, Delivery.finished_iff, not_and_or]
  unfold Delivery.ok
  rw [portSet_eq_zero, portSet_eq_zero, hfin]
  simp only [inSet_and, inSet_or, inSet_compl, Bool.and_eq_false_imp, Bool.or_eq_true, Bool.not_eq_false']

theorem Delivery.leave_pend (d : Delivery) (p : Port) (how : Departure) : (d.leave p how).pend = without d.pend p := by
  cases how <;> rfl
theorem Delivery.leave_hold (d : Delivery) (p : Port) (how : Departure) : (d.leave p how).hold = without d.hold p := by
  cases how <;> rfl
theorem Delivery.leave_dests (d : Delivery) (p : Port) (how : Departure) : (d.leave p how).dests = d.dests := by
  cases how <;> rfl
theorem Delivery.leave_origin (d : Delivery) (p : Port) (how : Departure) : (d.leave p how).origin = d.origin := by
  cases how <;> rfl

/-- A departure is counted once, in one of the three tallies. -/
theorem Delivery.leave_tallies (d : Delivery) (p : Port) (how : Departure) :
    (d.leave p how).accepted + (d.leave p how).refused + (d.leave p how).withdrawn =
      d.accepted + d.refused + d.withdrawn + 1 := by
  cases how <;> simp only [Delivery.leave] <;> omega

/-- A participant that departs takes one place from the sets and adds one to the tallies. -/
theorem Delivery.leave_ok {d : Delivery} {p : Port} (hd : d.ok) (hp : inSet d.pend p = true ∨ inSet d.hold p = true)
    (how : Departure) (hl : (d.leave p how).finished = false) : (d.leave p how).ok := by
  rw [Delivery.ok_iff] at hd ⊢
  obtain ⟨hdisj, hsub, horigin, hcount, -⟩ := hd
  rw [Delivery.leave_tallies, Delivery.leave_pend, Delivery.leave_hold, Delivery.leave_dests, Delivery.leave_origin]
  refine ⟨fun q => ?_, fun q => ?_, horigin, ?_, hl⟩
  · simp only [inSet_without, Bool.and_eq_true]
    rintro ⟨hq, -⟩
    simp [hdisj q hq]
  · simp only [inSet_without, Bool.and_eq_true]
    exact fun hq => hsub q (hq.imp And.left And.left)
  · have hpend := card_without d.pend p
    have hhold := card_without d.hold p
    rcases hp with h | h
    · simp only [h, hdisj p h, if_true, Bool.false_eq_true, if_false] at hpend hhold
      omega
    · have h' : inSet d.pend p = false := by
        by_contra hne
        simp [hdisj p (by simpa using hne)] at h
      simp only [h, h', if_true, Bool.false_eq_true, if_false] at hpend hhold
      omega

/-- A take moves a pending port to the holders. -/
theorem Delivery.take_ok {d : Delivery} {p : Port} (hd : d.ok) (hp : inSet d.pend p = true) :
    ({ d with pend := without d.pend p, hold := withPort d.hold p } : Delivery).ok := by
  rw [Delivery.ok_iff] at hd ⊢
  obtain ⟨hdisj, hsub, horigin, hcount, -⟩ := hd
  have hhold : inSet d.hold p = false := hdisj p hp
  refine ⟨fun q hq => ?_, fun q hq => ?_, horigin, ?_, ?_⟩
  · simp only [inSet_without, inSet_withPort, Bool.and_eq_true, Bool.not_eq_true', decide_eq_false_iff_not] at hq ⊢
    simp [hdisj q hq.1, hq.2]
  · by_cases hqp : p = q
    · exact hsub q (.inl (hqp ▸ hp))
    · exact hsub q (by simpa [hqp] using hq)
  · have h1 := card_without d.pend p
    have h2 := card_withPort d.hold p
    simp only [hp, hhold, if_true, Bool.false_eq_true, if_false] at h1 h2
    dsimp only
    omega
  · rw [← Bool.not_eq_true, Delivery.finished_iff]
    rintro ⟨-, h⟩
    simpa using portSet_eq_zero.mp h p

/-- A chain just handed to a set of other ports, one at least. -/
theorem Delivery.start_ok {p : Port} {dests : PortSet} (hne : dests ≠ 0) (hp : inSet dests p = false) :
    (Delivery.start p dests).ok := by
  rw [Delivery.ok_iff]
  refine ⟨fun q _ => by simp [Delivery.start], fun q hq => by simpa [Delivery.start] using hq, hp, ?_, ?_⟩
  · have : card 0#4 = 0 := by decide
    simp [Delivery.start, this]
  · rw [← Bool.not_eq_true, Delivery.finished_iff]
    exact fun h => hne h.1

/-! ### Live entries (R71, R72) -/

theorem InQueue.live_place (r : ChainRef) (depth : Nat) (e : Entry) (q : InQueue) :
    (q.place depth e).live r = q.live r + if e.ref = r ∧ e.void = false then 1 else 0 := by
  by_cases h : e.ref = r ∧ e.void = false
  · simp [InQueue.live, InQueue.place, List.filter_append, h.1, h.2]
  · rw [if_neg h]
    have : ¬(e.ref = r ∧ (!e.void) = true) := by simpa using h
    simpa [InQueue.live, InQueue.place, List.filter_append] using this

theorem InQueue.live_remove {q : InQueue} {e : Entry} (h : q.entries.head? = some e) (r : ChainRef) (depth : Nat) :
    (q.remove depth).live r + (if e.ref = r ∧ e.void = false then 1 else 0) = q.live r := by
  obtain ⟨es, hes⟩ := List.head?_eq_some_iff.mp h
  by_cases hl : e.ref = r ∧ e.void = false
  · simp [InQueue.live, InQueue.remove, hes, hl.1, hl.2]
  · have : ¬(e.ref = r ∧ (!e.void) = true) := by simpa using hl
    simp [InQueue.live, InQueue.remove, hes, hl]

theorem InQueue.live_voidRef (r r' : ChainRef) (q : InQueue) :
    (q.voidRef r).live r' = if r' = r then 0 else q.live r' := by
  unfold InQueue.live InQueue.voidRef
  induction q.entries with
  | nil => simp
  | cons e es ih =>
    rw [List.map_cons, List.filter_cons, List.filter_cons]
    by_cases her : e.ref = r
    · by_cases hr : r' = r
      · simpa [her, hr] using ih
      · have hr' : r ≠ r' := Ne.symm hr
        simpa [her, hr, hr'] using ih
    · by_cases hr : r' = r
      · have hne : e.ref ≠ r' := hr ▸ her
        simpa [her, hr] using ih
      · by_cases hl : e.ref = r' <;> cases hv : e.void <;> simpa [her, hr, hl, hv] using ih

theorem InQueue.live_reset (r : ChainRef) : InQueue.reset.live r = 0 := rfl

end Sys2Proof.Machine
end

section
/-! PROOFS. The deliveries, chain by chain: what each shared operation does to the agreement of one record with the
queues. -/

namespace Sys2Proof.Machine

/-- R4 and R71 for one chain, its live entries looked at in the queues of some ports only: while a withdrawal of a port
runs, that port's own queue still holds the entries of chains it has left. -/
def ChainAgrees (Q : Port → Prop) (s : State) (n : ChainNo) : Prop :=
  (∀ d, s.recs[n].life.delivery = some d → d.ok) ∧
  ∀ p, Q p → ∀ g : Gen,
    s.inqs[p].live ⟨n, g⟩ = if s.recs[n].gen = g ∧ s.recs[n].life.hasRole p .pending = true then 1 else 0

theorem deliveriesInv_iff (s : State) : DeliveriesInv s ↔ ∀ n, ChainAgrees (fun _ => True) s n :=
  ⟨fun h n => ⟨h.1 n, fun p _ g => h.2 p n g⟩, fun h => ⟨fun n => (h n).1, fun p n g => (h n).2 p trivial g⟩⟩

/-- The roles in a delivery are read from its fields. -/
theorem hasRole_of_delivery {l l' : Life} (h : l.delivery = l'.delivery) (p : Port) :
    l.hasRole p .pending = l'.hasRole p .pending := by
  simp [Life.hasRole, h]

theorem hasRole_pending_of_none {l : Life} (h : l.delivery = none) (p : Port) : l.hasRole p .pending = false := by
  simp [Life.hasRole, h]

@[simp] theorem hasRole_pending_delivering (d : Delivery) (l : Label) (k : Word) (p : Port) :
    (Life.delivering d l k).hasRole p .pending = inSet d.pend p := by
  simp [Life.hasRole, Life.delivery]

theorem delivering_of_pending {l : Life} {p : Port} (h : l.hasRole p .pending = true) :
    ∃ d lab k, l = .delivering d lab k ∧ inSet d.pend p = true := by
  cases l with
  | delivering d lab k => exact ⟨d, lab, k, rfl, by simpa using h⟩
  | _ => simp [Life.hasRole, Life.delivery] at h

theorem delivering_of_holder {l : Life} {p : Port} (h : l.hasRole p .holder = true) :
    ∃ d lab k, l = .delivering d lab k ∧ inSet d.hold p = true := by
  cases l with
  | delivering d lab k => exact ⟨d, lab, k, rfl, by simpa [Life.hasRole, Life.delivery] using h⟩
  | _ => simp [Life.hasRole, Life.delivery] at h

/-- What leaves a chain's generation, its delivery fields and the live entries for it keeps its agreement. -/
theorem ChainAgrees.congr {Q : Port → Prop} {s t : State} {n : ChainNo} (h : ChainAgrees Q s n)
    (hgen : t.recs[n].gen = s.recs[n].gen) (hd : t.recs[n].life.delivery = s.recs[n].life.delivery)
    (hlive : ∀ p, Q p → ∀ g : Gen, t.inqs[p].live ⟨n, g⟩ = s.inqs[p].live ⟨n, g⟩) : ChainAgrees Q t n := by
  refine ⟨fun d e => h.1 d (hd ▸ e), fun p hp g => ?_⟩
  rw [hlive p hp, h.2 p hp, hgen, hasRole_of_delivery hd]

/-- Live entries are in the present generation. -/
theorem ChainAgrees.live_of_gen_ne {Q : Port → Prop} {s : State} {n : ChainNo} (h : ChainAgrees Q s n) (p : Port)
    (hp : Q p) {g : Gen} (hg : s.recs[n].gen ≠ g) : s.inqs[p].live ⟨n, g⟩ = 0 := by
  rw [h.2 p hp, if_neg fun e => hg e.1]

/-- A record that is no delivery, and no live entry for it: nothing to agree on. -/
theorem ChainAgrees.of_no_delivery {Q : Port → Prop} {t : State} {n : ChainNo} (hd : t.recs[n].life.delivery = none)
    (hlive : ∀ p, Q p → ∀ g : Gen, t.inqs[p].live ⟨n, g⟩ = 0) : ChainAgrees Q t n := by
  refine ⟨fun d e => by simp [-Fin.getElem_fin, hd] at e, fun p hp g => ?_⟩
  rw [hlive p hp, hasRole_pending_of_none hd]
  simp

theorem State.setRec_get (s : State) (n : ChainNo) (r : ChainRec) : (s.setRec n r).recs[n] = r := by
  rw [State.setRec_recs, get_set, if_pos rfl]

/-- An update of one record says nothing of another. -/
theorem ChainAgrees.setRec_other {Q : Port → Prop} {s : State} {n m : ChainNo} (h : ChainAgrees Q s m) (hm : n ≠ m)
    (r : ChainRec) : ChainAgrees Q (s.setRec n r) m := by
  have e : (s.setRec n r).recs[m] = s.recs[m] := by rw [State.setRec_recs, get_set, if_neg hm]
  exact h.congr (by rw [e]) (by rw [e]) fun _ _ _ => rfl

/-- An update of one record, the queues unchanged, is looked at on that record alone. -/
theorem ChainAgrees.setRec {Q : Port → Prop} {s : State} {n : ChainNo} {r : ChainRec}
    (h : ∀ m, n ≠ m → ChainAgrees Q s m) (hn : ChainAgrees Q (s.setRec n r) n) (m : ChainNo) :
    ChainAgrees Q (s.setRec n r) m := by
  by_cases hm : n = m
  · exact hm ▸ hn
  · exact (h m hm).setRec_other hm r

/-! ### Vacate (R9, R72) -/

/-- The entries for the chain as it stood become void; of the vacated record no more is asked than that it has none
in another generation. -/
theorem vacate_chainAgrees {Q : Port → Prop} {s : State} {n : ChainNo} (h : ∀ m, n ≠ m → ChainAgrees Q s m)
    (hn : ∀ p, Q p → ∀ g : Gen, s.recs[n].gen ≠ g → s.inqs[p].live ⟨n, g⟩ = 0) (m : ChainNo) :
    ChainAgrees Q (s.vacate n) m := by
  have hlive : ∀ (p : Port) (g : Gen), (s.vacate n).inqs[p].live ⟨m, g⟩ =
      if (⟨m, g⟩ : ChainRef) = ⟨n, s.recs[n].gen⟩ then 0 else s.inqs[p].live ⟨m, g⟩ := fun p g => by
    rw [← InQueue.live_voidRef, State.vacate_inqs]
    simp
  have hrec : (s.vacate n).recs[m] =
      if n = m then { gen := s.recs[n].gen + 1, life := .vacant, length := 0, blocks := [] } else s.recs[m] := by
    rw [State.vacate_recs, get_set]
  by_cases hm : n = m
  · subst hm
    rw [if_pos rfl] at hrec
    refine ChainAgrees.of_no_delivery (by rw [hrec]; rfl) fun p hp g => ?_
    rw [hlive]
    split
    · rfl
    · next hg => exact hn p hp g fun e => hg (by rw [e])
  · rw [if_neg hm] at hrec
    have hne : ∀ g : Gen, (⟨m, g⟩ : ChainRef) ≠ ⟨n, s.recs[n].gen⟩ := fun g e => hm (congrArg ChainRef.num e).symm
    refine (h m hm).congr (by rw [hrec]) (by rw [hrec]) fun p _ g => ?_
    rw [hlive, if_neg (hne g)]

/-! ### Departure (R78, R79) -/

/-- A participant departs: a holder, or a pending port whose own queue is not looked at. -/
theorem depart_chainAgrees {Q : Port → Prop} {s : State} {n : ChainNo} {d : Delivery} {l : Label} {k : Word} {p : Port}
    (h : ∀ m, ChainAgrees Q s m) (hl : s.recs[n].life = .delivering d l k)
    (hp : inSet d.pend p = true ∨ inSet d.hold p = true) (hQ : Q p → inSet d.pend p = false) (how : Departure)
    (m : ChainNo) : ChainAgrees Q (s.depart p how n) m := by
  cases hfin : (d.leave p how).finished
  case false =>
    rw [State.depart_stays hl hfin]
    refine ChainAgrees.setRec (fun m _ => h m) ⟨fun d' e => ?_, fun q hq g => ?_⟩ m
    · rw [State.setRec_get] at e
      obtain rfl : d.leave p how = d' := Option.some.inj e
      exact Delivery.leave_ok ((h n).1 d (by rw [hl]; rfl)) hp how hfin
    · rw [State.setRec_get, State.setRec_inqs, (h n).2 q hq, hl]
      have : inSet (d.leave p how).pend q = inSet d.pend q := by
        rw [Delivery.leave_pend, inSet_without]
        by_cases hpq : p = q
        · subst hpq; simp [hQ hq]
        · simp [hpq]
      simp [-Fin.getElem_fin, this]
  case true =>
    rw [State.depart_last hl hfin]
    refine vacate_chainAgrees (fun m hm => ?_) (fun q hq g hg => ?_) m
    · exact (h m).setRec_other hm _
    · rw [State.offer_recs, State.setRec_get] at hg
      exact (h n).live_of_gen_ne q hq hg

end Sys2Proof.Machine
end

section
/-! PROOFS. The deliveries across each operation of the model: what rewrites no record's delivery and no queue, what
vacates, hands, takes, releases, adopts and recalls, and the withdrawal of a port. -/

namespace Sys2Proof.Machine

/-! ### Operations that leave the deliveries alone -/

theorem deliveriesInv_congr {s t : State} (hr : t.recs = s.recs) (hi : t.inqs = s.inqs) :
    DeliveriesInv t ↔ DeliveriesInv s := by
  unfold DeliveriesInv
  rw [hr, hi]

/-- The deliveries are no part of a PIU. -/
theorem deliveriesInv_ignoresPius : IgnoresPius DeliveriesInv := fun _ _ _ => deliveriesInv_congr rfl rfl

/-- One record is replaced, the queues unchanged. -/
theorem DeliveriesInv.setRec {s : State} {n : ChainNo} {r : ChainRec} (h : DeliveriesInv s)
    (hn : ChainAgrees (fun _ => True) (s.setRec n r) n) : DeliveriesInv (s.setRec n r) :=
  (deliveriesInv_iff _).mpr (ChainAgrees.setRec (fun m _ => (deliveriesInv_iff s).mp h m) hn)

/-- A record's length and blocks are no part of its delivery. -/
theorem DeliveriesInv.setRec_same {s : State} {n : ChainNo} {r : ChainRec} (h : DeliveriesInv s)
    (hgen : r.gen = s.recs[n].gen) (hd : r.life.delivery = s.recs[n].life.delivery) : DeliveriesInv (s.setRec n r) :=
  h.setRec (((deliveriesInv_iff s).mp h n).congr (by rw [State.setRec_get, hgen]) (by rw [State.setRec_get, hd]) fun _ _ _ => rfl)

/-- A record with no pending port takes a state that is no delivery: no queue holds a live entry for it. -/
theorem DeliveriesInv.setRec_undelivered {s : State} {n : ChainNo} {r : ChainRec} (h : DeliveriesInv s)
    (hpend : ∀ p, s.recs[n].life.hasRole p .pending = false) (hd : r.life.delivery = none) :
    DeliveriesInv (s.setRec n r) := by
  refine h.setRec (ChainAgrees.of_no_delivery (by rw [State.setRec_get, hd]) fun p _ g => ?_)
  rw [State.setRec_inqs, h.2 p n g, hpend p]
  simp

/-! ### Vacate, expiry, growth -/

theorem DeliveriesInv.vacate {s : State} (h : DeliveriesInv s) (n : ChainNo) : DeliveriesInv (s.vacate n) := by
  rw [deliveriesInv_iff] at h ⊢
  exact vacate_chainAgrees (fun m _ => h m) fun p hp _ hg => (h n).live_of_gen_ne p hp hg

theorem DeliveriesInv.expire {s : State} (h : DeliveriesInv s) (n : ChainNo) : DeliveriesInv (s.expire n) :=
  DeliveriesInv.vacate ((deliveriesInv_congr (by simp) (by simp)).mpr h) n

theorem DeliveriesInv.grow {s : State} (h : DeliveriesInv s) (n : ChainNo) (p : Port) (bs : List Nat) :
    DeliveriesInv (s.grow n p bs) :=
  (deliveriesInv_congr rfl rfl).mpr (h.setRec_same (n := n) rfl rfl)

/-- Blocks allocated come from the Free List and touch no record. -/
theorem DeliveriesInv.allocate {s t : State} {k : Nat} {bs : List Nat} (h : DeliveriesInv s)
    (ha : s.allocate k = some (bs, t)) : DeliveriesInv t := by
  unfold State.allocate at ha
  split at ha
  · obtain ⟨-, rfl⟩ := Prod.mk.inj (Option.some.inj ha)
    exact (deliveriesInv_congr (by simp) (by simp)).mpr h
  · simp at ha

theorem DeliveriesInv.lengthen {s : State} (h : DeliveriesInv s) (n : ChainNo) (len : Nat) :
    DeliveriesInv (s.lengthen n len) :=
  (deliveriesInv_congr rfl rfl).mpr (h.setRec_same (n := n) rfl rfl)

theorem DeliveriesInv.extendChain {s : State} (h : DeliveriesInv s) (p : Port) (n : ChainNo) (count : Word) :
    DeliveriesInv (extendChain p n count s).1 := by
  unfold Machine.extendChain
  dsimp only
  split
  · exact h
  split
  · exact h
  split
  · exact h.lengthen n _
  split
  · exact h
  split
  · exact h
  · next bs t ha => exact ((h.allocate ha).grow n p bs).lengthen n _

/-! ### Open, Seal, Unseal -/

theorem DeliveriesInv.openChain {s : State} (h : DeliveriesInv s) (p : Port) (tag : Word) :
    DeliveriesInv (openChain p tag s).1 := by
  unfold Machine.openChain
  split
  · exact h
  split
  · exact h
  · next n hn =>
    have hv : s.recs[n].life = .vacant := phase_vacant.mp (by simpa using List.find?_some hn)
    exact (deliveriesInv_congr rfl rfl).mpr (h.setRec_undelivered (fun q => by rw [hv]; rfl) rfl)

/-- A record that has an owner is no delivery. -/
theorem delivery_of_owner {l : Life} {p : Port} (h : l.hasRole p .owner = true) : l.delivery = none := by
  cases l with
  | delivering d l k => simp [Life.hasRole, Life.owner] at h
  | _ => rfl

/-- The commands that R12 gives to the owner alone never meet a delivery. -/
theorem chainCheck_undelivered {s : State} {c : Cmd} {p : Port} {ops : List Byte} {n : ChainNo}
    (h : s.chainCheck c p ops = .ok n) (hc : ∀ row ∈ roleRows c, row.1 = .owner) (q : Port) :
    s.recs[n].life.hasRole q .pending = false := by
  obtain ⟨-, -, -, row, hrow, hrole, -⟩ := chainCheck_ok_iff h
  rw [hc row hrow] at hrole
  exact hasRole_pending_of_none (delivery_of_owner hrole) q

theorem DeliveriesInv.placeSeal {s : State} {n : ChainNo} (h : DeliveriesInv s)
    (hpend : ∀ q, s.recs[n].life.hasRole q .pending = false) (p : Port) (l : Label) : DeliveriesInv (s.placeSeal n p l) :=
  (deliveriesInv_congr rfl rfl).mpr (h.setRec_undelivered (n := n) (r := { s.recs[n] with life := .sealing p l }) hpend rfl)

theorem DeliveriesInv.unseal {s : State} {n : ChainNo} (h : DeliveriesInv s)
    (hpend : ∀ q, s.recs[n].life.hasRole q .pending = false) (p : Port) (l : Label) : DeliveriesInv (s.unseal n p l) :=
  (deliveriesInv_congr (by simp [State.unseal]) (by simp [State.unseal])).mpr
    (h.setRec_undelivered (n := n) (r := { s.recs[n] with life := .opened p l }) hpend rfl)

/-- A completion acts on a SEALING record alone. -/
theorem DeliveriesInv.complete {s : State} (h : DeliveriesInv s) (run : SealRun) : DeliveriesInv (s.complete run) := by
  unfold State.complete
  dsimp only
  split
  · next o l hl =>
    split
    · exact (deliveriesInv_congr rfl rfl).mpr (h.setRec_undelivered (fun q => by rw [hl]; rfl) rfl)
    · exact h
  all_goals exact h

/-! ### Hand (R66, R67) -/

/-- The record becomes a delivery to other ports, and each destination's queue gets the one entry for it. -/
theorem DeliveriesInv.hand {s : State} {n : ChainNo} {p : Port} {dests : PortSet} (h : DeliveriesInv s)
    (hpend : ∀ q, s.recs[n].life.hasRole q .pending = false) (hne : dests ≠ 0) (hp : inSet dests p = false) (l : Label)
    (k : Word) : DeliveriesInv (s.hand n p dests l k) := by
  have hlive : ∀ (q : Port) (r : ChainRef), (s.hand n p dests l k).inqs[q].live r =
      s.inqs[q].live r + if inSet dests q = true ∧ ⟨n, s.recs[n].gen⟩ = r then 1 else 0 := fun q r => by
    have : (s.hand n p dests l k).inqs[q] =
        if inSet dests q then s.inqs[q].place (s.committed.depth q)
          { ref := ⟨n, s.recs[n].gen⟩, origin := p, hops := l.hops, tag := l.tag, length := s.recs[n].length, void := false }
        else s.inqs[q] := by
      simp [State.hand, State.placeEntries]
    rw [this]
    cases inSet dests q
    · simp
    · simp [-Fin.getElem_fin, InQueue.live_place]
  have hrec : ∀ m, (s.hand n p dests l k).recs[m] =
      if n = m then { s.recs[n] with life := .delivering (Delivery.start p dests) l k } else s.recs[m] := fun m => by
    rw [← get_set]; rfl
  rw [deliveriesInv_iff] at h ⊢
  intro m
  by_cases hm : n = m
  · subst hm
    have hn := hrec n
    rw [if_pos rfl] at hn
    refine ⟨fun d e => ?_, fun q hq g => ?_⟩
    · rw [hn] at e
      obtain rfl : Delivery.start p dests = d := Option.some.inj e
      exact Delivery.start_ok hne hp
    · rw [hlive, (h n).2 q hq, hpend q, hn, hasRole_pending_delivering]
      simp [-Fin.getElem_fin, Delivery.start, and_comm]
  · have hn := hrec m
    rw [if_neg hm] at hn
    refine (h m).congr (by rw [hn]) (by rw [hn]) fun q _ g => ?_
    rw [hlive, if_neg fun e => hm (congrArg ChainRef.num e.2)]
    rfl

theorem DeliveriesInv.handChain {s : State} {n : ChainNo} (h : DeliveriesInv s)
    (hpend : ∀ q, s.recs[n].life.hasRole q .pending = false) (p : Port) (mask : Byte) :
    DeliveriesInv (handChain p n mask s).1 := by
  unfold Machine.handChain
  dsimp only
  split
  · exact h
  · next hmask =>
    split
    · exact h
    split
    · exact h
    · simp only [maskInvalid, ge_iff_le, Bool.or_eq_true, decide_eq_true_eq, not_or, Bool.not_eq_true, not_le] at hmask
      obtain ⟨⟨hne, hlt⟩, hp⟩ := hmask
      refine h.hand hpend (fun e => hne ?_) hp _ _
      bv_omega

/-! ### Take (R76) -/

/-- The head entry leaves its queue. -/
theorem live_setInq_remove {s : State} {p : Port} {e : Entry} (he : s.inqs[p].entries.head? = some e) (depth : Nat)
    (q : Port) (r : ChainRef) :
    (s.setInq p (s.inqs[p].remove depth)).inqs[q].live r + (if p = q ∧ e.ref = r ∧ e.void = false then 1 else 0) =
      s.inqs[q].live r := by
  rw [State.setInq_inqs, get_set]
  by_cases hq : p = q
  · subst hq
    simpa [-Fin.getElem_fin] using InQueue.live_remove he r depth
  · simp [-Fin.getElem_fin, hq]

/-- A live entry of port p's queue names a delivery in its present generation in which p is pending. -/
theorem DeliveriesInv.of_live_head {s : State} {p : Port} {e : Entry} (h : DeliveriesInv s)
    (he : s.inqs[p].entries.head? = some e) (hv : e.void = false) :
    s.recs[e.ref.num].gen = e.ref.gen ∧
    ∃ d l k, s.recs[e.ref.num].life = .delivering d l k ∧ inSet d.pend p = true := by
  have hpos := InQueue.live_remove he e.ref 0
  have hlive := h.2 p e.ref.num e.ref.gen
  by_cases hc : s.recs[e.ref.num].gen = e.ref.gen ∧ s.recs[e.ref.num].life.hasRole p .pending = true
  · exact ⟨hc.1, delivering_of_pending hc.2⟩
  · rw [if_neg hc] at hlive
    rw [if_pos ⟨rfl, hv⟩, hlive] at hpos
    omega

/-- The port moves from the pending set to the holders, and the delivery lease is loaded. -/
theorem State.takeLive_delivering {s : State} {p : Port} {ref : ChainRef} {d : Delivery} {l : Label} {k : Word}
    (hl : s.recs[ref.num].life = .delivering d l k) (hgen : s.recs[ref.num].gen = ref.gen) :
    s.takeLive p ref = (s.setRec ref.num
      { s.recs[ref.num] with
        life := .delivering { d with pend := without d.pend p, hold := withPort d.hold p } l k }).loadLease ref.num := by
  simp only [State.takeLive, hl, hgen, if_true]

theorem DeliveriesInv.takeHead {s : State} {p : Port} {e : Entry} (h : DeliveriesInv s)
    (he : s.inqs[p].entries.head? = some e) : DeliveriesInv (takeHead p e s).1 := by
  have hlive := live_setInq_remove he (s.committed.depth p)
  unfold Machine.takeHead
  dsimp only
  split
  · next hv =>
    refine ⟨h.1, fun q m g => ?_⟩
    have := hlive q ⟨m, g⟩
    rw [if_neg (by simp [hv])] at this
    exact this.trans (h.2 q m g)
  · next hv =>
    have hv' : e.void = false := by simpa using hv
    obtain ⟨hgen, d, l, k, hl, hp⟩ := h.of_live_head he hv'
    rw [State.takeLive_delivering (by rw [State.setInq_recs]; exact hl) (by rw [State.setInq_recs]; exact hgen)]
    refine (deliveriesInv_congr rfl rfl).mpr ?_
    rw [deliveriesInv_iff] at h ⊢
    refine ChainAgrees.setRec (fun m hm => ?_) ⟨fun d' e' => ?_, fun q hq g => ?_⟩
    · refine (h m).congr rfl rfl fun q _ g => ?_
      have := hlive q ⟨m, g⟩
      rwa [if_neg fun e' => hm (congrArg ChainRef.num e'.2.1)] at this
    · rw [State.setRec_get] at e'
      obtain rfl := Option.some.inj e'
      exact Delivery.take_ok ((h _).1 d (by rw [hl]; rfl)) hp
    · have hq' := hlive q ⟨e.ref.num, g⟩
      rw [(h e.ref.num).2 q hq, hl, hasRole_pending_delivering, hgen] at hq'
      rw [State.setRec_get, State.setRec_inqs, State.setInq_recs, hasRole_pending_delivering, inSet_without, hgen]
      have href : e.ref = ⟨e.ref.num, g⟩ ↔ e.ref.gen = g := ⟨congrArg ChainRef.gen, fun e' => by rw [← e']⟩
      simp only [href] at hq'
      by_cases hg : e.ref.gen = g
      · by_cases hpq : p = q
        · subst hpq
          simpa [-Fin.getElem_fin, hg, hv', hp] using hq'
        · simpa [-Fin.getElem_fin, hg, hpq] using hq'
      · simpa [-Fin.getElem_fin, hg] using hq'

theorem DeliveriesInv.takeInbound {s : State} (h : DeliveriesInv s) (p : Port) (body : Body) :
    DeliveriesInv (takeInbound p body s).1 := by
  unfold Machine.takeInbound
  split
  · split
    · exact h
    split
    · next e he => exact h.takeHead he
    · exact h
  all_goals exact h

/-! ### Release, Adopt, Recall (R81, R84, R86) -/

/-- The commands that R12 gives to the holder alone meet a delivery which the port holds. -/
theorem chainCheck_holder {s : State} {c : Cmd} {p : Port} {ops : List Byte} {n : ChainNo}
    (h : s.chainCheck c p ops = .ok n) (hc : ∀ row ∈ roleRows c, row.1 = .holder) :
    ∃ d l k, s.recs[n].life = .delivering d l k ∧ inSet d.hold p = true := by
  obtain ⟨-, -, -, row, hrow, hrole, -⟩ := chainCheck_ok_iff h
  rw [hc row hrow] at hrole
  exact delivering_of_holder hrole

theorem DeliveriesInv.depart {s : State} {n : ChainNo} {d : Delivery} {l : Label} {k : Word} {p : Port}
    (h : DeliveriesInv s) (hl : s.recs[n].life = .delivering d l k) (hp : inSet d.hold p = true) (how : Departure) :
    DeliveriesInv (s.depart p how n) := by
  have hd := (Delivery.ok_iff d).mp (h.1 n d (by rw [hl]; rfl))
  have hpend : inSet d.pend p = false := by
    by_contra hne
    simp [hd.1 p (by simpa using hne)] at hp
  rw [deliveriesInv_iff] at h ⊢
  exact depart_chainAgrees h hl (.inr hp) (fun _ => hpend) how

theorem DeliveriesInv.releaseChain {s : State} {n : ChainNo} {d : Delivery} {l : Label} {k : Word} {p : Port}
    (h : DeliveriesInv s) (hl : s.recs[n].life = .delivering d l k) (hp : inSet d.hold p = true) (x : Byte) :
    DeliveriesInv (releaseChain p n x s).1 := by
  unfold Machine.releaseChain State.releaseBy
  split
  · exact h
  · dsimp only
    split
    · exact h.depart hl hp _
    · exact (deliveriesInv_congr rfl rfl).mpr (h.depart hl hp _)
  · exact h

/-- Adoption ends a delivery in which no port is pending. -/
theorem DeliveriesInv.adopt {s : State} {n : ChainNo} {d : Delivery} {l : Label} {k : Word} (h : DeliveriesInv s)
    (hl : s.recs[n].life = .delivering d l k) (hpend : d.pend = 0) (p : Port) : DeliveriesInv (s.adopt n p d l k) := by
  refine (deliveriesInv_congr (by simp [State.adopt]) (by simp [State.adopt])).mpr
    (h.setRec_undelivered (n := n) (r := { s.recs[n] with life := .sealed p ⟨l.tag, l.hops + 1⟩ k }) (fun q => ?_) rfl)
  rw [hl, hasRole_pending_delivering, hpend]
  exact inSet_zero q

theorem DeliveriesInv.adoptChain {s : State} (h : DeliveriesInv s) (p : Port) (n : ChainNo) :
    DeliveriesInv (adoptChain p n s).1 := by
  unfold Machine.adoptChain
  split
  · next d l k hl =>
    split
    · exact h
    next hsole =>
    split
    · exact h
    split
    · exact h
    split
    · exact h
    simp only [ne_eq, Bool.or_eq_true, decide_eq_true_eq, not_or, Decidable.not_not] at hsole
    exact h.adopt hl hsole.2 p
  all_goals exact h

/-- A recall voids the entries of every port still pending. -/
theorem DeliveriesInv.recall {s : State} (h : DeliveriesInv s) (n : ChainNo) (d : Delivery) (l : Label) (k : Word) :
    DeliveriesInv (s.recall n d l k) := by
  have hlive : ∀ (p : Port) (m : ChainNo) (g : Gen), (s.recall n d l k).inqs[p].live ⟨m, g⟩ =
      if (⟨m, g⟩ : ChainRef) = ⟨n, s.recs[n].gen⟩ then 0 else s.inqs[p].live ⟨m, g⟩ := fun p m g => by
    rw [← InQueue.live_voidRef]
    simp [State.recall]
  have hrec : ∀ m, (s.recall n d l k).recs[m] =
      if n = m then { s.recs[n] with life := .sealed d.origin l k } else s.recs[m] := fun m => by
    rw [← get_set]; rfl
  rw [deliveriesInv_iff] at h ⊢
  intro m
  have hm := hrec m
  by_cases hnm : n = m
  · subst hnm
    rw [if_pos rfl] at hm
    refine ChainAgrees.of_no_delivery (by rw [hm]; rfl) fun p hp g => ?_
    rw [hlive]
    split
    · rfl
    · next hg => exact (h n).live_of_gen_ne p hp fun e => hg (by rw [e])
  · rw [if_neg hnm] at hm
    refine (h m).congr (by rw [hm]) (by rw [hm]) fun p _ g => ?_
    rw [hlive, if_neg fun e => hnm (congrArg ChainRef.num e).symm]

theorem DeliveriesInv.recallChain {s : State} (h : DeliveriesInv s) (n : ChainNo) :
    DeliveriesInv (recallChain n s).1 := by
  unfold Machine.recallChain
  split
  · split
    · exact h
    · exact h.recall n _ _ _
  all_goals exact h

/-! ### Withdrawal (R145 to R150) -/

/-- A port that takes part in a record it does not own takes part in a delivery. -/
theorem delivering_of_touches {l : Life} {p : Port} (ht : l.touches p = true) (ho : ¬l.hasRole p .owner = true) :
    ∃ d lab k, l = .delivering d lab k ∧ (inSet d.pend p = true ∨ inSet d.hold p = true) := by
  simp only [Life.touches, Bool.or_eq_true] at ht
  rcases ht with (h | h) | h
  · exact absurd h ho
  · obtain ⟨d, lab, k, hl, hp⟩ := delivering_of_pending h
    exact ⟨d, lab, k, hl, .inl hp⟩
  · obtain ⟨d, lab, k, hl, hp⟩ := delivering_of_holder h
    exact ⟨d, lab, k, hl, .inr hp⟩

/-- One chain's turn in the withdrawal of p keeps what the queues of the other ports show. -/
theorem withdrawFrom_chainAgrees {s : State} {p : Port} {n : ChainNo} (h : ∀ m, ChainAgrees (· ≠ p) s m)
    (ht : s.recs[n].life.touches p = true) (m : ChainNo) : ChainAgrees (· ≠ p) (State.withdrawFrom p s n) m := by
  unfold State.withdrawFrom
  split
  · exact vacate_chainAgrees (fun m _ => h m) (fun q hq _ hg => (h n).live_of_gen_ne q hq hg) m
  · next ho =>
    obtain ⟨d, l, k, hl, hp⟩ := delivering_of_touches ht ho
    exact depart_chainAgrees h hl hp (fun hne => absurd rfl hne) .withdrawn m

theorem withdrawChains_chainAgrees {p : Port} (l : List ChainNo) (hl : l.Nodup) {s : State}
    (h : ∀ m, ChainAgrees (· ≠ p) s m) (ht : ∀ n ∈ l, s.recs[n].life.touches p = true) (m : ChainNo) :
    ChainAgrees (· ≠ p) (l.foldl (State.withdrawFrom p) s) m := by
  induction l generalizing s with
  | nil => exact h m
  | cons n l ih =>
    obtain ⟨hn, hl⟩ := List.nodup_cons.mp hl
    refine ih hl (withdrawFrom_chainAgrees h (ht n List.mem_cons_self)) fun n' hn' => ?_
    rw [(State.withdrawFrom_record p s n).1, get_set, if_neg (ne_of_mem_of_not_mem hn' hn).symm]
    exact ht n' (List.mem_cons_of_mem _ hn')

/-- A record that the withdrawal of p has reached names p no longer among its pending ports. -/
theorem ChainRec.withdrawn_not_pending (p : Port) (r : ChainRec) : (r.withdrawn p).life.hasRole p .pending = false := by
  unfold ChainRec.withdrawn
  split
  · split
    · rfl
    · rw [hasRole_pending_delivering, Delivery.leave_pend, inSet_without]
      simp
  all_goals
    next hl =>
    split
    · rfl
    · rw [hl]; rfl

/-- After its chains' turns no record has the withdrawn port pending. -/
theorem withdrawChains_not_pending (s : State) (p : Port) (n : ChainNo) :
    ((s.withdrawOrder p).foldl (State.withdrawFrom p) s).recs[n].life.hasRole p .pending = false := by
  rw [(State.withdraw_records p _ (s.withdrawOrder_nodup p) s n).1]
  split
  · exact ChainRec.withdrawn_not_pending p _
  · next hn =>
    rw [State.withdrawOrder_mem] at hn
    simp only [Life.touches, Bool.or_eq_true, not_or, Bool.not_eq_true] at hn
    exact hn.1.2

theorem DeliveriesInv.withdraw {s : State} (h : DeliveriesInv s) (p : Port) (res : ResultRec) :
    DeliveriesInv (s.withdraw p res) := by
  rw [deliveriesInv_iff] at h ⊢
  have hfold := withdrawChains_chainAgrees (s.withdrawOrder p) (s.withdrawOrder_nodup p)
    (fun m => ⟨(h m).1, fun q _ => (h m).2 q trivial⟩) (fun n hn => (s.withdrawOrder_mem p n).mp hn)
  intro m
  refine ⟨(hfold m).1, fun q _ g => ?_⟩
  have hinq : (s.withdraw p res).inqs[q] =
      if p = q then InQueue.reset else ((s.withdrawOrder p).foldl (State.withdrawFrom p) s).inqs[q] := by
    rw [← get_set]; rfl
  rw [hinq]
  by_cases hpq : p = q
  · subst hpq
    rw [if_pos rfl, InQueue.live_reset, if_neg]
    rintro ⟨-, e⟩
    exact absurd (withdrawChains_not_pending s p m) (by rw [Bool.not_eq_false]; exact e)
  · rw [if_neg hpq]
    exact (hfold m).2 q (Ne.symm hpq) g

theorem DeliveriesInv.withdrawAll {s : State} (h : DeliveriesInv s) (m : PortSet) : DeliveriesInv (s.withdrawAll m) := by
  unfold State.withdrawAll
  generalize s.portOrder m = l
  induction l generalizing s with
  | nil => exact h
  | cons q l ih => exact ih (h.withdraw q disabledResult)

/-! ### Commit, device reset -/

/-- A change of depth rewinds a queue and keeps its entries (R73). -/
theorem DeliveriesInv.applySettings {s : State} (h : DeliveriesInv s) (staged : Settings) :
    DeliveriesInv (s.applySettings staged) := by
  refine ⟨h.1, fun p n g => ?_⟩
  refine Eq.trans ?_ (h.2 p n g)
  simp only [State.applySettings, Fin.getElem_fin, Vector.getElem_ofFn]
  split <;> rfl

theorem DeliveriesInv.commitSettings {s : State} (h : DeliveriesInv s) (p : Port) :
    DeliveriesInv (commitSettings p s) := by
  unfold Machine.commitSettings
  split
  · exact (deliveriesInv_ignoresPius.record _ _ _ _).mpr h
  split
  · exact (deliveriesInv_ignoresPius.record _ _ _ _).mpr h
  · next staged _ _ _ =>
    have hc : DeliveriesInv (s.commit p staged) :=
      (deliveriesInv_congr (by simp [State.commit, State.endClaim]) (by simp [State.commit, State.endClaim])).mpr
        ((h.applySettings staged).withdrawAll (s.disables staged))
    unfold State.recordCommit
    split
    · exact (deliveriesInv_ignoresPius.record _ _ _ _).mpr hc
    · exact hc

theorem deliveriesInv_deviceReset (s : State) (resetn : Bool) : DeliveriesInv (s.deviceReset resetn) := by
  have hrec : (s.deviceReset resetn).recs = Vector.replicate 64 ChainRec.reset := rfl
  have hinq : (s.deviceReset resetn).inqs = Vector.replicate 4 InQueue.reset := rfl
  rw [deliveriesInv_iff]
  intro n
  apply ChainAgrees.of_no_delivery
  · simp [hrec, ChainRec.reset, Life.delivery]
  · intro p _ g
    simp [hinq, InQueue.live_reset]

end Sys2Proof.Machine
end

section
/-! PROOFS. The deliveries across every row, and across a step (R4, R71). -/

namespace Sys2Proof.Machine

/-! ### Actions that touch no chain -/

theorem DeliveriesInv.takeNotice {s : State} (h : DeliveriesInv s) (p : Port) (body : Body) :
    DeliveriesInv (takeNotice p body s).1 := by
  unfold Machine.takeNotice
  split
  · split
    · exact h
    · exact (deliveriesInv_congr rfl rfl).mpr h
  all_goals exact h

theorem DeliveriesInv.setEnables {s : State} (h : DeliveriesInv s) (p : Port) (m : Byte) :
    DeliveriesInv (setEnables p m s).1 := by
  unfold Machine.setEnables
  split
  · exact h
  · exact (deliveriesInv_congr rfl rfl).mpr h

theorem DeliveriesInv.acknowledgeAttention {s : State} (h : DeliveriesInv s) (p : Port) (m : Byte) :
    DeliveriesInv (acknowledgeAttention p m s).1 := by
  unfold Machine.acknowledgeAttention
  split
  · exact h
  · exact (deliveriesInv_congr rfl rfl).mpr h

theorem DeliveriesInv.claimSettings {s : State} (h : DeliveriesInv s) (p : Port) :
    DeliveriesInv (claimSettings p s).1 := by
  unfold Machine.claimSettings
  split
  · exact (deliveriesInv_congr rfl rfl).mpr h
  · split <;> exact h

theorem DeliveriesInv.writeSetting {s : State} (h : DeliveriesInv s) (p : Port) (id : Byte) (v : Word) :
    DeliveriesInv (writeSetting p id v s).1 := by
  unfold Machine.writeSetting
  split
  · exact h
  · exact h
  · split
    · exact (deliveriesInv_congr rfl rfl).mpr h
    · exact h

theorem DeliveriesInv.abandonSettings {s : State} (h : DeliveriesInv s) (p : Port) :
    DeliveriesInv (abandonSettings p s).1 := by
  unfold Machine.abandonSettings
  split
  · exact h
  · exact (deliveriesInv_congr rfl rfl).mpr h

/-! ### Streams -/

theorem DeliveriesInv.takeStream {s : State} (h : DeliveriesInv s) (c : Cmd) (kind : StreamKind) (p : Port)
    (ops : List Byte) : DeliveriesInv (s.takeStream c kind p ops) := by
  have hr (e : Ending) : DeliveriesInv (s.refuseStream c p ops e) := (deliveriesInv_ignoresPius.setLink _ _ _).mpr h
  unfold State.takeStream
  generalize (if kind = .append then 0 else (opWord ops 2).toNat) = offset
  dsimp only
  split
  · exact hr _
  split
  · exact hr _
  split
  · exact hr _
  · exact (deliveriesInv_congr rfl rfl).mpr h

/-- A byte accepted raises the chain's length (R37). -/
theorem DeliveriesInv.appendAccept {s : State} (h : DeliveriesInv s) (p : Port) (st : Stream) (x : Byte) :
    DeliveriesInv (s.appendAccept p st x) :=
  (deliveriesInv_ignoresPius _ _ _).mpr (h.setRec_same rfl rfl)

theorem DeliveriesInv.appendByte {s : State} (h : DeliveriesInv s) (p : Port) (st : Stream) (x : Byte) :
    DeliveriesInv (s.appendByte p st x) := by
  have hstop (why : ResultCode) : DeliveriesInv (s.appendStop p st why) := (deliveriesInv_ignoresPius _ _ _).mpr h
  unfold State.appendByte
  dsimp only
  split
  · exact h.appendAccept p st x
  split
  · exact hstop _
  split
  · exact hstop _
  split
  · exact hstop _
  · next bs t ha => exact ((h.allocate ha).grow st.ref.num p bs).appendAccept p st x

theorem DeliveriesInv.rewriteByte {s : State} (h : DeliveriesInv s) (p : Port) (st : Stream) (x : Byte) :
    DeliveriesInv (s.rewriteByte p st x) := by
  unfold State.rewriteByte
  dsimp only
  split <;> exact (deliveriesInv_ignoresPius _ _ _).mpr h

theorem readNext_deliveries {s : State} (h : DeliveriesInv s) (p : Port) (st : Stream) :
    Leaves DeliveriesInv (s.readNext p st) := by
  unfold State.readNext
  dsimp only
  split
  · simp
  · simpa using (deliveriesInv_ignoresPius _ _ _).mpr h

theorem execReadData_deliveries {p : Port} {b : Beat} {s : State} (h : DeliveriesInv s) :
    Leaves DeliveriesInv (execReadData p b s) := by
  have hP := deliveriesInv_ignoresPius
  unfold execReadData
  split
  · split
    · simpa using h
    split
    · simp
    · exact readNext_deliveries ((hP.byteEnd _ _).mpr h) _ _
  · exact linkBeat_leaves hP h (fun _ => h.takeStream _ _ _ _) fun _ _ => (hP.deselect s p).mpr h

theorem execReadDataByte_deliveries {p : Port} {s : State} (h : DeliveriesInv s) :
    Leaves DeliveriesInv (execReadDataByte p s) := by
  have hb := (deliveriesInv_ignoresPius.byteEnd s p).mpr h
  unfold execReadDataByte
  have hn (st : Stream) := readNext_deliveries hb p st
  repeat' split
  all_goals simp [h, hb, hn]

theorem DeliveriesInv.finishStream {s : State} (h : DeliveriesInv s) (p : Port) (st : Stream) :
    DeliveriesInv (s.finishStream p st) :=
  (deliveriesInv_ignoresPius.record _ _ _ _).mpr ((deliveriesInv_ignoresPius _ _ _).mpr h)

theorem DeliveriesInv.closeStream {s : State} (h : DeliveriesInv s) (p : Port) (st : Stream) :
    DeliveriesInv (s.closeStream p st) := by
  have hd := (deliveriesInv_ignoresPius.deselect s p).mpr h
  unfold State.closeStream
  split
  · exact (deliveriesInv_ignoresPius _ _ _).mpr hd
  · exact hd.finishStream p st

theorem execStreamClose_deliveries {p : Port} {b : CloseBeat} {s : State} (h : DeliveriesInv s) :
    Leaves DeliveriesInv (execStreamClose p b s) := by
  have hd := (deliveriesInv_ignoresPius.deselect s p).mpr h
  cases b
  case rise =>
    dsimp only [execStreamClose]
    unfold streamRise
    repeat' split
    all_goals simp [h, hd, h.closeStream, deliveriesInv_ignoresPius.record]
  case record =>
    dsimp only [execStreamClose]
    unfold streamRecord
    repeat' split
    all_goals simp [h, h.finishStream]

/-! ### The rows of a command -/

/-- A beat of any command's transaction keeps the deliveries: a query and a refusal change the PIU alone, and each action
is looked at on the record that its checks have passed. -/
theorem commandBeat_deliveries {c : Cmd} {p : Port} {b : Beat} {s : State} (h : DeliveriesInv s) :
    Leaves DeliveriesInv (commandBeat c p b s) := by
  have hP := deliveriesInv_ignoresPius
  have hq := (hP.deselect s p).mpr h
  have owner_only {c : Cmd} (hc : ∀ row ∈ roleRows c, row.1 = .owner) {n : ChainNo} {ops : List Byte}
      (hn : (s.deselect p).chainCheck c p ops = .ok n) := chainCheck_undelivered hn hc
  cases c
  case appendData | rewriteData => exact linkBeat_leaves hP h (fun _ => h.takeStream _ _ _ _) fun _ _ => hq
  case readData => exact execReadData_deliveries h
  case openChain => exact recordedBeat_leaves hP h fun _ => hq.openChain p _
  case extendChain => exact chainBeat_leaves hP h fun n _ _ => hq.extendChain p n _
  case discardChain => exact chainBeat_leaves hP h fun n _ _ => hq.vacate n
  case renewLease => exact chainBeat_leaves hP h fun _ _ _ => hq
  case sealChain => exact chainBeat_leaves hP h fun n _ hn => hq.placeSeal (owner_only (by decide) hn) p _
  case unsealChain => exact chainBeat_leaves hP h fun n _ hn => hq.unseal (owner_only (by decide) hn) p _
  case handChain => exact chainBeat_leaves hP h fun n _ hn => hq.handChain (owner_only (by decide) hn) p _
  case takeInbound => exact takeBeat_leaves hP h fun body => hq.takeInbound p body
  case takeNotice => exact takeBeat_leaves hP h fun body => hq.takeNotice p body
  case releaseChain =>
    refine chainBeat_leaves hP h fun n ops hn => ?_
    obtain ⟨d, l, k, hl, hp⟩ := chainCheck_holder hn (by decide)
    exact hq.releaseChain hl hp _
  case adoptChain => exact chainBeat_leaves hP h fun n _ _ => hq.adoptChain p n
  case recallChain => exact chainBeat_leaves hP h fun n _ _ => hq.recallChain n
  case setEnables => exact recordedBeat_leaves hP h fun _ => hq.setEnables p _
  case acknowledgeAttention => exact recordedBeat_leaves hP h fun _ => hq.acknowledgeAttention p _
  case claimSettings => exact recordedBeat_leaves hP h fun _ => hq.claimSettings p
  case writeSetting => exact recordedBeat_leaves hP h fun _ => hq.writeSetting p _ _
  case abandonSettings => exact recordedBeat_leaves hP h fun _ => hq.abandonSettings p
  case commitSettings => exact actionBeat_leaves hP h fun _ => hq.commitSettings p
  case portReset => exact actionBeat_leaves hP h fun _ => hq.withdraw p portResetResult
  all_goals exact queryBeat_leaves hP h

/-! ### The link's own rows -/

theorem DeliveriesInv.linkError {s : State} (h : DeliveriesInv s) (p : Port) (c : Byte) (e : Ending) :
    DeliveriesInv (s.linkError p c e) :=
  (deliveriesInv_congr rfl rfl).mpr h

theorem execSelectRise_deliveries {p : Port} {s : State} (h : DeliveriesInv s) :
    Leaves DeliveriesInv (execSelectRise p s) := by
  unfold execSelectRise
  repeat' split
  all_goals simp [h, deliveriesInv_ignoresPius.deselect]

theorem execFraming_deliveries {p : Port} {bits : Fin 8} {s : State} (h : DeliveriesInv s) :
    Leaves DeliveriesInv (execFraming p bits s) := by
  unfold execFraming
  repeat' split
  all_goals simp [h, deliveriesInv_ignoresPius.deselect, h.linkError]

theorem execUnknownCommand_deliveries {p : Port} {b : UnknownBeat} {s : State} (h : DeliveriesInv s) :
    Leaves DeliveriesInv (execUnknownCommand p b s) := by
  unfold execUnknownCommand
  repeat' split
  all_goals
    simp [h, deliveriesInv_ignoresPius.deselect, deliveriesInv_ignoresPius.setLink, deliveriesInv_ignoresPius.byteEnd,
      h.linkError]

theorem execAppendDataByte_deliveries {p : Port} {x : Byte} {s : State} (h : DeliveriesInv s) :
    Leaves DeliveriesInv (execAppendDataByte p x s) :=
  dataByteIn_leaves deliveriesInv_ignoresPius h fun st =>
    ((deliveriesInv_ignoresPius.byteEnd s p).mpr h).appendByte p st x

theorem execRewriteDataByte_deliveries {p : Port} {x : Byte} {s : State} (h : DeliveriesInv s) :
    Leaves DeliveriesInv (execRewriteDataByte p x s) :=
  dataByteIn_leaves deliveriesInv_ignoresPius h fun st =>
    ((deliveriesInv_ignoresPius.byteEnd s p).mpr h).rewriteByte p st x

/-- The byte that the eighth bit makes whole is an event of its row. -/
theorem byteWhole_deliveries {p : Port} {x : Byte} {s : State} (h : DeliveriesInv s) :
    Leaves DeliveriesInv (byteWhole p x s) := by
  unfold byteWhole
  split
  · simpa using h
  · split
    · exact commandBeat_deliveries h
    · exact execUnknownCommand_deliveries h
  · exact commandBeat_deliveries h
  · unfold bodyByte
    split
    · exact execAppendDataByte_deliveries h
    split
    · exact execRewriteDataByte_deliveries h
    split
    · exact execReadDataByte_deliveries h
    · exact commandBeat_deliveries h
  · exact execUnknownCommand_deliveries h

theorem execSelectFall_deliveries {w : PortEdge} {s : State} (h : DeliveriesInv s) :
    Leaves DeliveriesInv (execSelectFall w s) := by
  have hP := deliveriesInv_ignoresPius
  unfold execSelectFall
  split
  · unfold selectFalls
    split
    · simp
    · simpa using (hP _ _ _).mpr h
  · unfold clockRises
    split
    · simpa using h
    split
    · simpa using (hP.setWire _ _ _).mpr h
    · exact holdPnDO_leaves hP (byteWhole_deliveries ((hP.byteEnd _ _).mpr h))
  · unfold clockFalls
    split
    · simpa using h
    · simpa using (hP.setWire _ _ _).mpr h

/-! ### The part's own rows -/

/-- An event that writes neither a record nor an inbound queue. -/
theorem leaves_deliveries_next {s t : State} (h : DeliveriesInv s) (hr : t.recs = s.recs) (hi : t.inqs = s.inqs) :
    Leaves DeliveriesInv (.next t) :=
  (leaves_next _ _).mpr ((deliveriesInv_congr hr hi).mpr h)

theorem execStagingLineWrite_deliveries {p : Port} {s : State} (h : DeliveriesInv s) :
    Leaves DeliveriesInv (execStagingLineWrite p s) := by
  unfold execStagingLineWrite
  split
  · simpa using h
  split
  · simp
  · exact leaves_deliveries_next h rfl rfl

theorem execStagingLineFill_deliveries {p : Port} {s : State} (h : DeliveriesInv s) :
    Leaves DeliveriesInv (execStagingLineFill p s) := by
  unfold execStagingLineFill
  split
  · simpa using h
  split
  · simp
  · exact leaves_deliveries_next h rfl rfl

theorem execSealLineRead_deliveries {s : State} (h : DeliveriesInv s) : Leaves DeliveriesInv (execSealLineRead s) := by
  unfold execSealLineRead
  split
  · split
    · simpa using h
    split
    · simp
    · exact leaves_deliveries_next h rfl rfl
  · simpa using h

theorem execSealCompletion_deliveries {s : State} (h : DeliveriesInv s) :
    Leaves DeliveriesInv (execSealCompletion s) := by
  unfold execSealCompletion
  split
  · next run _ =>
    split
    · exact leaves_deliveries_next (h.complete run) rfl rfl
    · simpa using h
  · simpa using h

theorem execChainLeaseExpiry_deliveries {n : ChainNo} {s : State} (h : DeliveriesInv s) :
    Leaves DeliveriesInv (execChainLeaseExpiry n s) := by
  unfold execChainLeaseExpiry
  split
  · split
    · simpa using h.expire n
    · exact leaves_deliveries_next h rfl rfl
  all_goals simpa using h

theorem DeliveriesInv.lapse {s : State} (h : DeliveriesInv s) : DeliveriesInv s.lapse := by
  unfold State.lapse State.endClaim
  split <;> exact (deliveriesInv_congr (by simp) (by simp)).mpr h

theorem execClaimLeaseExpiry_deliveries {s : State} (h : DeliveriesInv s) :
    Leaves DeliveriesInv (execClaimLeaseExpiry s) := by
  unfold execClaimLeaseExpiry
  split
  · exact (leaves_next _ _).mpr h.lapse
  all_goals simpa using h

theorem execTick_deliveries {s : State} (h : DeliveriesInv s) : Leaves DeliveriesInv (execTick s) := by
  unfold execTick
  split
  · exact leaves_deliveries_next h rfl rfl
  · simpa using h

theorem execRefclkPeriod_deliveries {s : State} (h : DeliveriesInv s) : Leaves DeliveriesInv (execRefclkPeriod s) := by
  unfold execRefclkPeriod
  split
  · simpa using h
  split <;> exact leaves_deliveries_next h rfl rfl

theorem execClearingStart_deliveries {s : State} (h : DeliveriesInv s) :
    Leaves DeliveriesInv (execClearingStart s) := by
  unfold execClearingStart
  split
  · exact leaves_deliveries_next h rfl rfl
  all_goals simpa using h

theorem execClearLineWrite_deliveries {s : State} (h : DeliveriesInv s) :
    Leaves DeliveriesInv (execClearLineWrite s) := by
  unfold execClearLineWrite
  split
  · split
    · simp
    split
    · exact leaves_deliveries_next h (by simp [State.fillLine]) (by simp [State.fillLine])
    · exact leaves_deliveries_next h (by simp [State.completeClearing, State.fillLine])
        (by simp [State.completeClearing, State.fillLine])
  · simpa using h

theorem execInitializationComplete_deliveries {s : State} (h : DeliveriesInv s) :
    Leaves DeliveriesInv (execInitializationComplete s) := by
  unfold execInitializationComplete
  split
  · simpa using h
  · exact leaves_deliveries_next h rfl rfl

/-! ### Every row -/

theorem exec_deliveries (i : Instr) {s : State} (h : DeliveriesInv s) : Leaves DeliveriesInv (exec i s) := by
  cases i
  case powerOn => simpa [exec, execPowerOn] using deliveriesInv_deviceReset s _
  case resetnAssertion => simpa [exec, execResetnAssertion] using deliveriesInv_deviceReset s _
  case selectFall w => exact execSelectFall_deliveries h
  case framing p bits => exact execFraming_deliveries h
  case unknownCommand p b => exact execUnknownCommand_deliveries h
  case selectRise p => exact execSelectRise_deliveries h
  case appendDataByte p x => exact execAppendDataByte_deliveries h
  case rewriteDataByte p x => exact execRewriteDataByte_deliveries h
  case readDataByte p => exact execReadDataByte_deliveries h
  case streamClose p b => exact execStreamClose_deliveries h
  case stagingLineWrite p => exact execStagingLineWrite_deliveries h
  case stagingLineFill p => exact execStagingLineFill_deliveries h
  case sealLineRead => exact execSealLineRead_deliveries h
  case sealCompletion => exact execSealCompletion_deliveries h
  case chainLeaseExpiry n => exact execChainLeaseExpiry_deliveries h
  case claimLeaseExpiry => exact execClaimLeaseExpiry_deliveries h
  case tick => exact execTick_deliveries h
  case refclkPeriod => exact execRefclkPeriod_deliveries h
  case clearingStart => exact execClearingStart_deliveries h
  case clearLineWrite => exact execClearLineWrite_deliveries h
  case resetnRelease => exact leaves_deliveries_next h rfl rfl
  case initializationComplete => exact execInitializationComplete_deliveries h
  case readResult p b => exact commandBeat_deliveries (c := .readResult) h
  case readAttention p b => exact commandBeat_deliveries (c := .readAttention) h
  case readQueueStatus p b => exact commandBeat_deliveries (c := .readQueueStatus) h
  case readFreeStatus p b => exact commandBeat_deliveries (c := .readFreeStatus) h
  case readChainInfo p b => exact commandBeat_deliveries (c := .readChainInfo) h
  case readSettings p b => exact commandBeat_deliveries (c := .readSettings) h
  case identify p b => exact commandBeat_deliveries (c := .identify) h
  case openChain p b => exact commandBeat_deliveries (c := .openChain) h
  case appendData p b => exact commandBeat_deliveries (c := .appendData) h
  case rewriteData p b => exact commandBeat_deliveries (c := .rewriteData) h
  case readData p b => exact commandBeat_deliveries (c := .readData) h
  case extendChain p b => exact commandBeat_deliveries (c := .extendChain) h
  case sealChain p b => exact commandBeat_deliveries (c := .sealChain) h
  case unsealChain p b => exact commandBeat_deliveries (c := .unsealChain) h
  case discardChain p b => exact commandBeat_deliveries (c := .discardChain) h
  case renewLease p b => exact commandBeat_deliveries (c := .renewLease) h
  case handChain p b => exact commandBeat_deliveries (c := .handChain) h
  case takeInbound p b => exact commandBeat_deliveries (c := .takeInbound) h
  case releaseChain p b => exact commandBeat_deliveries (c := .releaseChain) h
  case adoptChain p b => exact commandBeat_deliveries (c := .adoptChain) h
  case recallChain p b => exact commandBeat_deliveries (c := .recallChain) h
  case takeNotice p b => exact commandBeat_deliveries (c := .takeNotice) h
  case setEnables p b => exact commandBeat_deliveries (c := .setEnables) h
  case acknowledgeAttention p b => exact commandBeat_deliveries (c := .acknowledgeAttention) h
  case claimSettings p b => exact commandBeat_deliveries (c := .claimSettings) h
  case writeSetting p b => exact commandBeat_deliveries (c := .writeSetting) h
  case commitSettings p b => exact commandBeat_deliveries (c := .commitSettings) h
  case abandonSettings p b => exact commandBeat_deliveries (c := .abandonSettings) h
  case portReset p b => exact commandBeat_deliveries (c := .portReset) h

/-- The queue of commands is no part of the deliveries, and an empty one idles. -/
theorem step_deliveries {s : State} (h : DeliveriesInv s) : Leaves DeliveriesInv (step s) := by
  unfold step
  split
  · simpa using h
  · exact exec_deliveries _ ((deliveriesInv_congr rfl rfl).mpr h)

end Sys2Proof.Machine

namespace Sys2Proof.Proofs

/-- Settles O55: the deliveries are looked at chain by chain, and the rows that touch one keep its sets, its tallies and
its live entries together. -/
theorem deliveriesAgree : Obligations.DeliveriesAgree :=
  fun _ t h hs => Machine.step_deliveries hs t h

end Sys2Proof.Proofs
end

section
/-! PROOFS. The commands of the chain records: Read Chain Info's copy, the refusals of the chain checks, Open Chain and
Discard Chain (sections 1.5 to 1.8). -/

namespace Sys2Proof.Machine

/-! ### Read Chain Info (R17, R165) -/

/-- A query with operands makes its copy at the last of them, from an enabled port. -/
theorem queryBeat_operand {c : Cmd} {p : Port} {s : State} {ops : List Byte} {x : Byte} (h : AtOperand s p c ops)
    (hlast : c.operandCount = ops.length + 1) (he : s.isEnabled p = true) (always : Bool)
    (copy : List Byte → State → List Byte × List Byte) :
    queryBeat c p (.operand x) always copy s =
      .next (s.setLink p (.body c (ops ++ [x]) (.copy (copy (ops ++ [x]) s).1 (copy (ops ++ [x]) s).2))) := by
  unfold queryBeat
  rw [linkBeat_operand x h (by omega), if_neg (by omega)]
  simp [he]

theorem execReadChainInfo_operand {p : Port} {s : State} {nb gb : Byte} (h : AtOperand s p .readChainInfo [nb])
    (he : s.isEnabled p = true) :
    exec (.readChainInfo p (.operand gb)) s =
      .next (s.setLink p (.body .readChainInfo [nb, gb] (.copy (s.chainInfoBytes p [nb, gb]) []))) :=
  queryBeat_operand h rfl he false _

/-- Out of range nothing is copied. -/
theorem chainInfoBytes_range {s : State} {p : Port} {nb gb : Byte} (h : 64 ≤ nb.toNat ∨ 16 ≤ gb.toNat) :
    s.chainInfoBytes p [nb, gb] = [] := by
  simp [State.chainInfoBytes, opByte, parseRef_none h]

/-- In range the dummy byte, the public part, then the entitled port's part or zeros. -/
theorem chainInfoBytes_record {s : State} {p : Port} {nb gb : Byte} {n : ChainNo} {g : Gen} (hn : nb.toNat = n.val)
    (hg : gb.toNat = g.toNat) :
    s.chainInfoBytes p [nb, gb] = [0xFF] ++ s.recs[n].publicBytes ++
      (if s.recs[n].entitles g p then
        s.recs[n].privateBytes s.leases[n] ++ s.recs[n].blocks.flatMap (fun b => be (w16 b))
       else List.replicate 7 0) := by
  simp only [State.chainInfoBytes, opByte, List.getD_cons_zero, List.getD_cons_succ, parseRef_some hn hg]

theorem ChainRec.publicBytes_eq (r : ChainRec) :
    r.publicBytes = [b8 r.life.phase.code, r.gen.setWidth 8,
        (match r.life.charged with | some q => b8 q.val | none => 0xFF)] ++ be (w16 r.length) ++
      (match r.life.delivery with
        | some d => [b8 (card d.dests), b8 (card d.pend), b8 (card d.hold)]
        | none => [0, 0, 0]) := by
  unfold ChainRec.publicBytes
  cases r.life <;> rfl

theorem Lease.remaining_byte (c : Lease) :
    b8 c.remaining = (match c with | .none => 0 | .running c _ => b8 c | .raised _ => 0) := by
  cases c <;> rfl

theorem ChainRec.privateBytes_eq (r : ChainRec) (c : Lease) :
    r.privateBytes c =
      (match r.life.label with | some l => be l.tag ++ [b8 l.hops.val] | none => [0, 0, 0]) ++
      [match c with | .none => 0 | .running c _ => b8 c | .raised _ => 0] ++
      (match r.life.check with | some k => be k | none => [0, 0]) ++ [b8 r.blocks.length] := by
  rw [← Lease.remaining_byte]
  unfold ChainRec.privateBytes
  cases r.life <;> simp [Life.label, Life.check, be, hiByte, loByte, b8]

theorem ChainRec.entitles_iff {r : ChainRec} {g : Gen} {p : Port} {gb : Byte} (hg : gb.toNat = g.toNat) :
    r.entitles g p = true ↔
      r.gen.toNat = gb.toNat ∧ (r.life.hasRole p .owner = true ∨ r.life.hasRole p .holder = true) := by
  rw [hg, BitVec.toNat_inj]
  simp [ChainRec.entitles]

/-! ### Refusals (R11 to R13) -/

/-- An action that names a chain and fails a check records the refusal and does nothing else. -/
theorem exec_chainAction_error {s : State} {p : Port} {c : Cmd} {ops : List Byte} {e : Ending} (hc : c ∈ chainActions)
    (h : Waits s p c ops) (he : s.chainCheck c p ops = .error e) :
    exec (row c p .rise) s = .next (s.answers p c.code e) := by
  simp only [chainActions, List.mem_cons, List.not_mem_nil, or_false] at hc
  rcases hc with rfl | rfl | rfl | rfl | rfl | rfl | rfl | rfl | rfl
  all_goals exact chainBeat_error h (by decide) he _

theorem chainActions_subset {c : Cmd} (hc : c ∈ chainActions) : c ∈ chainCommands :=
  List.mem_append_right _ hc

/-- A record whose owner is known is not VACANT. -/
theorem ne_vacant_of_owner {l : Life} {p : Port} (h : l.owner = some p) : l ≠ .vacant := by
  rintro rfl
  simp [Life.owner] at h

/-! ### Open Chain (R14, R15) -/

theorem execOpenChain_rise {s : State} {p : Port} {x y : Byte} (h : Waits s p .openChain [x, y]) :
    exec (.openChain p .rise) s =
      .next ((openChain p (x ++ y) (s.deselect p)).1.record p 0x20 (openChain p (x ++ y) (s.deselect p)).2) :=
  recordedBeat_rise h (by decide) _

theorem lowestVacant_none {s : State} (h : ∀ n : ChainNo, s.recs[n].life ≠ .vacant) : s.lowestVacant = none := by
  unfold State.lowestVacant
  rw [List.find?_eq_none]
  intro n _
  simpa [-Fin.getElem_fin, phase_vacant] using h n

theorem lowestVacant_some {s : State} {n : ChainNo} (hn : s.recs[n].life = .vacant)
    (hm : ∀ m : ChainNo, m < n → s.recs[m].life ≠ .vacant) : s.lowestVacant = some n := by
  unfold State.lowestVacant
  rw [List.find?_eq_some_iff_getElem]
  refine ⟨by simp [-Fin.getElem_fin, phase_vacant, hn], n.val, by simp, by simp, fun j hj => ?_⟩
  have := hm ⟨j, by omega⟩ hj
  simpa [phase_vacant] using this

theorem openChain_quota {s : State} {p : Port} (tag : Word) (h : s.committed.chainQuota p ≤ s.chChains[p]) :
    openChain p tag s = (s, ⟨.quotaChains, w16 s.chChains[p], w16 (s.committed.chainQuota p)⟩) :=
  if_pos h

theorem openChain_noRecord {s : State} {p : Port} (tag : Word) (h : s.chChains[p] < s.committed.chainQuota p)
    (hv : ∀ n : ChainNo, s.recs[n].life ≠ .vacant) : openChain p tag s = (s, ⟨.noRecord, 0, 0⟩) := by
  unfold openChain
  rw [if_neg (Nat.not_le.mpr h), lowestVacant_none hv]

theorem openChain_ok {s : State} {p : Port} {n : ChainNo} (tag : Word) (h : s.chChains[p] < s.committed.chainQuota p)
    (hn : s.recs[n].life = .vacant) (hm : ∀ m : ChainNo, m < n → s.recs[m].life ≠ .vacant) :
    openChain p tag s = (s.openAt n p tag, ⟨.ok, w16 n.val, s.recs[n].gen.setWidth 16⟩) := by
  unfold openChain
  rw [if_neg (Nat.not_le.mpr h), lowestVacant_some hn hm]

/-- The record, the charge and the lease of a chain just opened. -/
theorem State.openAt_record (s : State) (n : ChainNo) (p : Port) (tag : Word) (e : Ending) :
    ((s.deselect p).openAt n p tag).record p 0x20 e =
      { s with
        recs := s.recs.set n { gen := s.recs[n].gen, life := .opened p ⟨tag, 0⟩, length := 0, blocks := [] }
        chChains := s.chChains.set p (s.chChains[p] + 1)
        leases := s.leases.set n (loaded (s.committed.ownerLease p) s.recs[n].gen)
        pius := s.pius.set p (s.pius[p].answered 0x20 e) } := by
  simp [State.openAt, State.record, State.setPiu, State.loadLease, State.setLease, State.setRec, State.charge,
    State.deselect, Piu.answered, leaseLength, Lease.ofLength, loaded]

end Sys2Proof.Machine

namespace Sys2Proof.Proofs
open Machine

/-- Settles O12: the reference is out of range or names a record, whose two parts are compared layout by layout. -/
theorem chainInfoCopied : Obligations.ChainInfoCopied := by
  intro s p nb gb h he
  rw [execReadChainInfo_operand h he]
  refine ⟨fun hr => by rw [chainInfoBytes_range hr], fun n hn hg => ?_⟩
  obtain ⟨g, hgb, -⟩ := parseRef_range hn hg
  rw [chainInfoBytes_record hn hgb, ChainRec.publicBytes_eq, ChainRec.privateBytes_eq]
  simp only [ChainRec.entitles_iff hgb]
  rfl

/-- Settles O16: the four answers of the chain checks, each recorded as it stands. -/
theorem chainChecksRefuse : Obligations.ChainChecksRefuse := by
  intro s p c nb gb rest hc h
  have hc' := chainActions_subset hc
  refine ⟨fun hr => exec_chainAction_error hc h (chainCheck_range hr), fun n hn hg => ⟨fun hst => ?_, ?_, ?_⟩⟩
  · exact exec_chainAction_error hc h (chainCheck_stale hn hg hst)
  · intro hv hgen hrole
    exact exec_chainAction_error hc h (chainCheck_notYours hc' ⟨hn, hgen.symm, hv⟩ hrole)
  · intro hgen hrole ho hs
    exact exec_chainAction_error hc h
      (chainCheck_wrongState hc' ⟨hn, hgen.symm, ne_vacant_of_owner ho⟩ hrole ho hs)

/-- Settles O17: the quota, then the lowest-numbered VACANT record. -/
theorem openChain : Obligations.OpenChain := by
  intro s p x y h
  rw [execOpenChain_rise h]
  refine ⟨fun hq => ?_, fun hq hv => ?_, fun n hq hn hm => ?_⟩
  · rw [openChain_quota _ (by exact hq), State.deselect_record]
    rfl
  · rw [openChain_noRecord _ (by exact hq) (by exact hv), State.deselect_record]
  · rw [openChain_ok (n := n) _ (by exact hq) (by exact hn) (by exact hm), State.openAt_record]
    rfl

/-- Settles O18: an owner's record is in one of the three states that R12 gives the command. -/
theorem discardChain : Obligations.DiscardChain := by
  intro s p nb gb n h hnames ho
  have hc : Cmd.discardChain ∈ chainCommands := by decide
  have hrole : holdsRole .discardChain s.recs[n].life p = true := by simp [-Fin.getElem_fin, holdsRole, Life.hasRole, ho]
  have hphase : s.recs[n].life.phase ∈ ownerStates .discardChain := by
    rcases hl : s.recs[n].life with _ | _ | _ | _ | _
    case vacant | delivering => rw [hl] at ho; simp [Life.owner] at ho
    all_goals simp [ownerStates, Life.phase]
  exact chainBeat_ok h (by decide) (chainCheck_owner hc hnames hrole ho hphase) _

end Sys2Proof.Proofs
end

section
/-! PROOFS. The vacate of a record, step by step (R9). -/

namespace Sys2Proof.Machine

/-! ### The release of a block list (R21, R22, R25) -/

/-- A rise of the free count changes the watermark exactly where it re-arms it (R25). -/
theorem State.freeRises_watermark_ne (s : State) (l : List Nat) :
    (s.freeRises l).watermark ≠ s.watermark ↔ s.watermark = .tripped ∧ s.committed.highMark ≤ l.length := by
  cases hw : s.watermark
  case armed => simp [State.freeRises, State.rearms, hw]
  case tripped => simp [State.freeRises, State.rearms, hw]

/-- Under clear on release the blocks wait to be cleared. -/
theorem State.release_clear {s : State} (h : s.committed.clearOnRelease = true) (l : List Nat) :
    (s.release l).clearQ = s.clearQ ++ l ∧ (s.release l).free = s.free ∧ (s.release l).watermark = s.watermark := by
  cases l with
  | nil => simp [State.release]
  | cons b l => simp [State.release, h]

/-- Otherwise they are free at once, and a rise of the free count may re-arm the watermark. -/
theorem State.release_free {s : State} (h : s.committed.clearOnRelease = false) (l : List Nat) :
    (s.release l).free = s.free ++ l ∧ (s.release l).clearQ = s.clearQ ∧
    ((s.release l).watermark ≠ s.watermark ↔
      l ≠ [] ∧ s.watermark = .tripped ∧ s.committed.highMark ≤ s.free.length + l.length) := by
  cases l with
  | nil => simp [State.release]
  | cons b l =>
    have e : s.release (b :: l) = s.freeRises (s.free ++ b :: l) := by simp [State.release, h]
    rw [e, State.freeRises_watermark_ne]
    exact ⟨rfl, rfl, by simp⟩

/-! ### The seal of a vacated record (R60) -/

theorem State.cancelIfSealing_not {s : State} {n : ChainNo} (h : s.recs[n].life.phase ≠ .sealing) :
    s.cancelIfSealing n = s :=
  if_neg h

/-- What the cancelling writes is settled by the records, the Seal Queue and the engine. -/
theorem State.cancelIfSealing_congr {s t : State} (hr : t.recs = s.recs) (hq : t.sealQ = s.sealQ)
    (he : t.sealEng = s.sealEng) (n : ChainNo) :
    (t.cancelIfSealing n).sealQ = (s.cancelIfSealing n).sealQ ∧
    (t.cancelIfSealing n).sealEng = (s.cancelIfSealing n).sealEng := by
  unfold State.cancelIfSealing State.cancelSeal State.runs State.startRun
  rw [hr, hq, he]
  split
  · split <;> exact ⟨rfl, rfl⟩
  · exact ⟨hq, he⟩

/-- A run of another chain goes on, and the chain leaves the Seal Queue. -/
theorem State.cancelIfSealing_queued {s : State} {n : ChainNo} (h : s.recs[n].life.phase = .sealing)
    (hrun : ∀ run, s.sealEng = some run → run.ref.num ≠ n) :
    s.cancelIfSealing n = { s with sealQ := s.sealQ.filter (fun r => r.num ≠ n) } := by
  have hr : s.runs n = false := by
    unfold State.runs
    cases he : s.sealEng with
    | none => rfl
    | some run => simpa using hrun run he
  unfold State.cancelIfSealing State.cancelSeal
  rw [if_pos h, if_neg (by simp [hr])]

/-- A run of the chain is aborted, and the next one starts. -/
theorem State.cancelIfSealing_running {s : State} {n : ChainNo} {run : SealRun} (h : s.recs[n].life.phase = .sealing)
    (he : s.sealEng = some run) (hn : run.ref.num = n) :
    s.cancelIfSealing n = { s with sealQ := s.sealQ.tail, sealEng := nextRun s.recs s.sealQ } := by
  have hr : s.runs n = true := by simp [State.runs, he, hn]
  unfold State.cancelIfSealing State.cancelSeal
  rw [if_pos h, if_pos hr]
  rfl

/-! ### The fields a vacate writes -/

/-- The Free List, the Clear Queue and the watermark are what the release of the blocks leaves. -/
theorem State.vacate_released (s : State) (n : ChainNo) :
    (s.vacate n).free = (s.release s.recs[n].blocks).free ∧ (s.vacate n).clearQ = (s.release s.recs[n].blocks).clearQ ∧
    (s.vacate n).watermark = (s.release s.recs[n].blocks).watermark := by
  simp [State.vacate]

theorem State.vacate_charges {s : State} {n : ChainNo} {q : Port} (h : s.recs[n].life.charged = some q) :
    (s.vacate n).chBlocks = s.chBlocks.set q (s.chBlocks[q] - s.recs[n].blocks.length) ∧
    (s.vacate n).chChains = s.chChains.set q (s.chChains[q] - 1) := by
  simp [-Fin.getElem_fin, State.vacate, State.uncharge, h]

/-- The Seal Queue and the engine are what the cancelling leaves. -/
theorem State.vacate_seal (s : State) (n : ChainNo) :
    (s.vacate n).sealQ = (s.cancelIfSealing n).sealQ ∧ (s.vacate n).sealEng = (s.cancelIfSealing n).sealEng := by
  have h := State.cancelIfSealing_congr (s := s) (t := ((s.release s.recs[n].blocks).uncharge s.recs[n]).setLease n .none)
    (by simp) (by simp) (by simp) n
  simpa only [State.vacate, State.setRec_sealQ, State.setRec_sealEng, State.voidEntries_sealQ, State.voidEntries_sealEng,
    State.endStreams_sealQ, State.endStreams_sealEng] using h

theorem State.vacate_piu (s : State) (n : ChainNo) (p : Port) :
    (s.vacate n).pius[p] = (s.pius[p]).revoke ⟨n, s.recs[n].gen⟩ := by
  rw [State.vacate_pius]
  simp

theorem State.vacate_inq (s : State) (n : ChainNo) (p : Port) :
    (s.vacate n).inqs[p] = (s.inqs[p]).voidRef ⟨n, s.recs[n].gen⟩ := by
  rw [State.vacate_inqs]
  simp

/-- A stream in progress on the vacated chain ends REVOKED, its staging line emptied. -/
theorem Piu.revoke_of_streams {u : Piu} {r : ChainRef} {st : Stream} (hs : u.stream = some st) (hr : st.ref = r)
    (he : st.earned = none) :
    u.revoke r = { u with
      stream := some { st with revoked := true, shift := st.shift.map (fun _ => 0xFF) }
      staging := { base := 0, cells := Vector.replicate 16 none, req := .none } } := by
  have : u.streams r = true := by simp [Piu.streams, hs, hr, he]
  unfold Piu.revoke
  rw [if_pos this, if_pos this, hs]
  rfl

theorem Piu.not_streams {u : Piu} {r : ChainRef} (h : ∀ st, u.stream = some st → st.ref ≠ r ∨ st.earned ≠ none) :
    u.streams r = false := by
  unfold Piu.streams
  cases hs : u.stream with
  | none => rfl
  | some st =>
    rcases h st hs with hr | he
    · simp [hr]
    · simp [Option.isNone_eq_false_iff.mpr (Option.isSome_iff_ne_none.mpr he)]

end Sys2Proof.Machine

namespace Sys2Proof.Proofs
open Machine

/-- Settles O19: each step of the vacate by the field it writes, the rest by the fields a vacate leaves. -/
theorem vacateEffects : Obligations.VacateEffects := by
  intro s n q hq
  obtain ⟨hfree, hclearQ, hwatermark⟩ := s.vacate_released n
  obtain ⟨hblocks, hchains⟩ := State.vacate_charges hq
  obtain ⟨hsealQ, hsealEng⟩ := s.vacate_seal n
  rw [hfree, hclearQ, hwatermark, hsealQ, hsealEng]
  refine ⟨s.vacate_recs n, fun h => State.release_clear h _, fun h => State.release_free h _, hblocks, hchains,
    s.vacate_leases n, fun h => ?_, fun h hrun => ?_, fun run h he hn => ?_, fun p st hs hr he => ?_, fun p hp => ?_,
    s.vacate_inq n, ?_⟩
  · rw [State.cancelIfSealing_not h]
    exact ⟨rfl, rfl⟩
  · rw [State.cancelIfSealing_queued h hrun]
    exact ⟨rfl, rfl⟩
  · rw [State.cancelIfSealing_running h he hn]
    exact ⟨rfl, rfl⟩
  · rw [State.vacate_piu, Piu.revoke_of_streams hs hr he]
  · rw [State.vacate_piu, Piu.revoke_of_not_streams (Piu.not_streams hp)]
  · simp

end Sys2Proof.Proofs
end

section
/-! PROOFS. A port's link and its open stream, PIU by PIU: what `StreamsInv` and `LinksInv` ask of one PIU beside the
Chain Table, and what a change of the PIU or of a record keeps of it. -/

namespace Sys2Proof.Machine

/-! ### One PIU -/

/-- A link in OPERAND state still needs a byte (R155). -/
def Link.Needs (l : Link) : Prop := ∀ c ops, l = .operand c ops → ops.length < c.operandCount

/-- The link carries no command past its command byte. -/
def Link.Off (l : Link) : Prop := l = .deselected ∨ l = .command ∨ ∃ x, l = .ignoring x

/-- The link beside the stream open at its port (R29, R34). -/
def Stream.RunsOn (st : Stream) (l : Link) : Prop :=
  (∀ c ops, l ≠ .operand c ops) ∧
  (∀ c ops b, l = .body c ops b → b = .streaming ∧ c = st.kind.cmd ∧ st.closing = false) ∧
  (st.earned ≠ none → st.closing = true)

/-- Port p's stream, in progress and not ended by a vacate, is on a record of its generation (R29, R34, R49). -/
def Stream.OnRecord (recs : Vector ChainRec 64) (p : Port) (st : Stream) : Prop :=
  st.revoked = false → st.earned = none →
    recs[st.ref.num].gen = st.ref.gen ∧ recs[st.ref.num].life ≠ .vacant ∧
    (st.kind ≠ .read → ∃ l, recs[st.ref.num].life = .opened p l)

/-- A PIU whose link and stream agree with each other and with the Chain Table. -/
def Piu.Agrees (recs : Vector ChainRec 64) (p : Port) (u : Piu) : Prop :=
  u.link.Needs ∧ ∀ st, u.stream = some st → st.RunsOn u.link ∧ st.OnRecord recs p

/-- Every PIU agrees with the Chain Table. -/
def PiusAgree (s : State) : Prop := ∀ p : Port, s.pius[p].Agrees s.recs p

theorem piusAgree_iff (s : State) : PiusAgree s ↔ StreamsInv s ∧ LinksInv s := by
  constructor
  · intro h
    exact ⟨fun p st hs => ((h p).2 st hs).2, fun p => (h p).1, fun p st hs => ((h p).2 st hs).1⟩
  · rintro ⟨hstreams, hneeds, hruns⟩ p
    exact ⟨hneeds p, fun st hs => ⟨hruns p st hs, hstreams p st hs⟩⟩

theorem Link.Off.needs {l : Link} (h : l.Off) : l.Needs := by
  rcases h with rfl | rfl | ⟨x, rfl⟩ <;> simp [Link.Needs]

theorem Link.needs_body (c : Cmd) (ops : List Byte) (b : Body) : (Link.body c ops b).Needs := by
  simp [Link.Needs]

theorem StreamKind.cmd_cls (k : StreamKind) : k.cmd.cls = .stream := by
  cases k <;> rfl

/-- With select raised, or before the command byte, any stream may still be closing. -/
theorem Stream.RunsOn.off {st : Stream} {l l' : Link} (h : st.RunsOn l) (hl : l'.Off) : st.RunsOn l' := by
  obtain ⟨-, -, hearned⟩ := h
  rcases hl with rfl | rfl | ⟨x, rfl⟩ <;> exact ⟨by simp, by simp, hearned⟩

section Changes
variable {recs : Vector ChainRec 64} {p : Port} {u u' : Piu}

/-- The link and the stream are all that is looked at. -/
theorem Piu.Agrees.congr (h : u.Agrees recs p) (hl : u'.link = u.link) (hs : u'.stream = u.stream) :
    u'.Agrees recs p := by
  unfold Piu.Agrees
  rw [hl, hs]
  exact h

theorem Piu.Agrees.off (h : u.Agrees recs p) (hl : u'.link.Off) (hs : u'.stream = u.stream) : u'.Agrees recs p :=
  ⟨hl.needs, fun st e => by
    obtain ⟨hruns, hon⟩ := h.2 st (hs ▸ e)
    exact ⟨hruns.off hl, hon⟩⟩

/-- A PIU without a stream agrees with any table. -/
theorem Piu.agrees_of_idle (hs : u.stream = none) (hl : u.link.Needs) : u.Agrees recs p :=
  ⟨hl, fun st e => by simp [hs] at e⟩

/-- What of a stream the agreement looks at. -/
def Stream.standing (st : Stream) : StreamKind × ChainRef × Bool × Bool × Option Ending :=
  (st.kind, st.ref, st.revoked, st.closing, st.earned)

/-- A stream that goes on: its counts and its bytes change, its standing does not. -/
theorem Piu.Agrees.goesOn {st st' : Stream} (h : u.Agrees recs p) (hst : u.stream = some st)
    (hl : u'.link = u.link) (hs : u'.stream = some st') (hstand : st'.standing = st.standing) : u'.Agrees recs p := by
  simp only [Stream.standing, Prod.mk.injEq] at hstand
  obtain ⟨hkind, href, hrev, hclosing, hearned⟩ := hstand
  obtain ⟨hneeds, hstream⟩ := h
  refine ⟨hl ▸ hneeds, fun st₁ e => ?_⟩
  obtain rfl : st' = st₁ := Option.some.inj (hs ▸ e)
  have := hstream st hst
  unfold Stream.RunsOn Stream.OnRecord at this ⊢
  simp only [hl, hkind, href, hrev, hclosing, hearned]
  exact this

/-- Select rises on a stream whose last line is still to be written. -/
theorem Piu.Agrees.closing {st : Stream} (h : u.Agrees recs p) (hst : u.stream = some st) (hl : u'.link.Off)
    (hs : u'.stream = some { st with closing := true }) : u'.Agrees recs p := by
  refine ⟨hl.needs, fun st₁ e => ?_⟩
  obtain rfl := Option.some.inj (hs ▸ e)
  have hruns : ({ st with closing := true } : Stream).RunsOn .deselected := ⟨by simp, by simp, fun _ => rfl⟩
  exact ⟨hruns.off hl, (h.2 st hst).2⟩

/-- A stream whose last line is written has earned its outcome and is no longer in progress. -/
theorem Piu.Agrees.settle (len : Stream → Nat) (h : u.Agrees recs p) (hl : u'.link = u.link)
    (hs : u'.stream = u.stream.map (fun st => st.settle (len st))) : u'.Agrees recs p := by
  refine ⟨hl ▸ h.1, fun st₁ e => ?_⟩
  obtain ⟨st, hst, rfl⟩ := Option.map_eq_some_iff.mp (hs ▸ e)
  obtain ⟨hruns, hon⟩ := h.2 st hst
  unfold Stream.settle
  split
  · next hc =>
    refine ⟨⟨hl ▸ hruns.1, fun c ops b hb => ?_, fun _ => hc⟩, fun _ he => by simp at he⟩
    simp [(hruns.2.1 c ops b (hl ▸ hb)).2.2] at hc
  · exact ⟨hl ▸ hruns, hon⟩

/-- A further byte in BODY: the data phase of a stream is left as it is. -/
theorem Piu.Agrees.pass {c : Cmd} {ops : List Byte} {b : Body} (h : u.Agrees recs p) (hb : u.link = .body c ops b)
    (hl : u'.link = .body c ops b.pass) (hs : u'.stream = u.stream) : u'.Agrees recs p := by
  refine ⟨hl ▸ Link.needs_body c ops _, fun st e => ?_⟩
  obtain ⟨⟨-, hbody, hearned⟩, hon⟩ := h.2 st (hs ▸ e)
  obtain ⟨rfl, hc, hclosing⟩ := hbody c ops b hb
  rw [hl]
  exact ⟨⟨by simp, by simpa [Body.pass] using ⟨hc, hclosing⟩, hearned⟩, hon⟩

/-- A vacate of the chain the stream is on ends it. -/
theorem Piu.Agrees.revoke (r : ChainRef) (h : u.Agrees recs p) : (u.revoke r).Agrees recs p := by
  cases hr : u.streams r
  case false => rwa [Piu.revoke_of_not_streams hr]
  case true =>
    refine ⟨h.1, fun st₁ e => ?_⟩
    simp only [Piu.revoke, hr, if_true] at e
    obtain ⟨st, hst, rfl⟩ := Option.map_eq_some_iff.mp e
    exact ⟨(h.2 st hst).1, fun hrev => by simp [Stream.revoke] at hrev⟩

/-- A withdrawal of the port ends its stream, unless its outcome is earned: select has then risen. -/
theorem Piu.Agrees.withdraw (res : ResultRec) (h : u.Agrees recs p) : (u.withdraw res).Agrees recs p := by
  have hneeds : (u.withdraw res).link.Needs := fun c ops e => h.1 c ops (by
    rcases hl : u.link with _ | _ | _ | _ | _ <;> simp [Piu.withdraw, Link.withdraw, hl] at e ⊢
    exact e)
  refine ⟨hneeds, fun st e => ?_⟩
  simp only [Piu.withdraw, Option.filter_eq_some_iff] at e
  obtain ⟨hst, he⟩ := e
  obtain ⟨⟨hop, hbody, hearned⟩, hon⟩ := h.2 st hst
  have hclosing := hearned (Option.isSome_iff_ne_none.mp he)
  refine ⟨⟨fun c ops e => ?_, fun c ops b e => ?_, hearned⟩, hon⟩
  all_goals
    rcases hl : u.link with _ | _ | ⟨c', ops'⟩ | ⟨c', ops', b'⟩ | _ <;>
      simp [Piu.withdraw, Link.withdraw, hl] at e
  · exact hop c' ops' hl
  · simp [(hbody c' ops' b' hl).2.2] at hclosing

/-- No stream is open while a command waits for its operands. -/
theorem Piu.Agrees.idle_of_operand {c : Cmd} {ops : List Byte} (h : u.Agrees recs p) (hl : u.link = .operand c ops) :
    u.stream = none := by
  cases hs : u.stream with
  | none => rfl
  | some st => exact absurd hl ((h.2 st hs).1.1 c ops)

/-- No stream is open while a command that is no stream's is in BODY. -/
theorem Piu.Agrees.idle_of_body {c : Cmd} {ops : List Byte} {b : Body} (h : u.Agrees recs p)
    (hl : u.link = .body c ops b) (hc : c.cls ≠ .stream ∨ b ≠ .streaming) : u.stream = none := by
  cases hs : u.stream with
  | none => rfl
  | some st =>
    obtain ⟨rfl, rfl, -⟩ := (h.2 st hs).1.2.1 c ops b hl
    simp [StreamKind.cmd_cls] at hc

/-- A stream in its data phase has not earned its outcome. -/
theorem Piu.Agrees.unearned {c : Cmd} {ops : List Byte} {b : Body} {st : Stream} (h : u.Agrees recs p)
    (hl : u.link = .body c ops b) (hs : u.stream = some st) : st.kind.cmd = c ∧ st.earned = none := by
  obtain ⟨⟨-, hbody, hearned⟩, -⟩ := h.2 st hs
  obtain ⟨-, hc, hclosing⟩ := hbody c ops b hl
  refine ⟨hc.symm, ?_⟩
  by_contra hne
  simp [hearned hne] at hclosing

/-! ### One record -/

/-- A record that keeps its generation and stays in use keeps the streams on it, as long as no port that owned it in
OPEN and loses it so has a stream. -/
theorem Piu.Agrees.setRec {n : ChainNo} {r : ChainRec} (h : u.Agrees recs p) (hgen : r.gen = recs[n].gen)
    (hv : recs[n].life ≠ .vacant → r.life ≠ .vacant)
    (ho : ∀ l, recs[n].life = .opened p l → u.stream = none ∨ ∃ l', r.life = .opened p l') :
    u.Agrees (recs.set n r) p := by
  refine ⟨h.1, fun st hs => ⟨(h.2 st hs).1, fun hrev he => ?_⟩⟩
  obtain ⟨hg, hlive, hw⟩ := (h.2 st hs).2 hrev he
  rw [get_set]
  by_cases hn : n = st.ref.num
  · subst hn
    rw [if_pos rfl]
    refine ⟨hgen.trans hg, hv hlive, fun hk => ?_⟩
    obtain ⟨l, hl⟩ := hw hk
    exact (ho l hl).resolve_left (by simp [hs])
  · rw [if_neg hn]
    exact ⟨hg, hlive, hw⟩

/-- The streams on a vacated chain have been ended. -/
theorem Piu.Agrees.vacated (n : ChainNo) (r : ChainRec) (h : u.Agrees recs p) :
    (u.revoke ⟨n, recs[n].gen⟩).Agrees (recs.set n r) p := by
  have h' := h.revoke ⟨n, recs[n].gen⟩
  refine ⟨h'.1, fun st hs => ⟨(h'.2 st hs).1, fun hrev he => ?_⟩⟩
  obtain ⟨hg, hlive, hw⟩ := (h'.2 st hs).2 hrev he
  have hn : n ≠ st.ref.num := fun hn => by
    have href : st.ref = ⟨n, recs[n].gen⟩ := by
      subst hn
      rw [hg]
    cases hr : u.streams ⟨n, recs[n].gen⟩
    case true =>
      simp only [Piu.revoke, hr, if_true] at hs
      obtain ⟨st', -, rfl⟩ := Option.map_eq_some_iff.mp hs
      simp [Stream.revoke] at hrev
    case false =>
      rw [Piu.revoke_of_not_streams hr] at hs
      simp [Piu.streams, hs, href, he] at hr
  rw [get_set, if_neg hn]
  exact ⟨hg, hlive, hw⟩

end Changes

/-! ### All four -/

theorem PiusAgree.congr {s t : State} (h : PiusAgree s) (hr : t.recs = s.recs) (hp : t.pius = s.pius) :
    PiusAgree t := by
  unfold PiusAgree
  rw [hr, hp]
  exact h

theorem PiusAgree.setPiu {s : State} {p : Port} {u : Piu} (h : PiusAgree s) (hu : u.Agrees s.recs p) :
    PiusAgree (s.setPiu p u) := by
  intro q
  rw [State.setPiu_pius, get_set]
  split
  · next e => exact e ▸ hu
  · exact h q

theorem PiusAgree.setRec {s : State} {n : ChainNo} {r : ChainRec} (h : PiusAgree s) (hgen : r.gen = s.recs[n].gen)
    (hv : s.recs[n].life ≠ .vacant → r.life ≠ .vacant)
    (ho : ∀ q l, s.recs[n].life = .opened q l → s.pius[q].stream = none ∨ ∃ l', r.life = .opened q l') :
    PiusAgree (s.setRec n r) :=
  fun q => (h q).setRec hgen hv (ho q)

theorem PiusAgree.vacate {s : State} (h : PiusAgree s) (n : ChainNo) : PiusAgree (s.vacate n) := by
  intro q
  rw [State.vacate_piu, State.vacate_recs]
  exact (h q).vacated n _

theorem piusAgree_deviceReset (s : State) (resetn : Bool) : PiusAgree (s.deviceReset resetn) := by
  intro p
  have hp : (s.deviceReset resetn).pius[p] = { Piu.reset with sel := s.pius[p].sel } := by simp [State.deviceReset]
  rw [hp]
  exact Piu.agrees_of_idle rfl (Link.Off.needs (.inl rfl))

end Sys2Proof.Machine
end

section
/-! PROOFS. What the operations on chains do to the stock: the store's bytes, the blocks in their places, the records
and the charges. An invariant of the stock is given by what it must survive (`StockInv`); beside it, where it is asked
for, the PIUs agree with the records (`Kept`). The operations keep both. -/

namespace Sys2Proof.Machine

/-! ### What allocation, Extend Chain and Append Data can do -/

theorem allocate_some {s t : State} {k : Nat} {bs : List Nat} (h : s.allocate k = some (bs, t)) :
    k ≤ s.free.length ∧ bs = s.free.take k ∧ t = s.freeFalls (s.free.drop k) := by
  unfold State.allocate at h
  split at h
  · next hk =>
    obtain ⟨rfl, rfl⟩ := Prod.mk.inj (Option.some.inj h)
    exact ⟨hk, rfl, rfl⟩
  · simp at h

theorem allocate_length {s t : State} {k : Nat} {bs : List Nat} (h : s.allocate k = some (bs, t)) : bs.length = k := by
  obtain ⟨hk, rfl, -⟩ := allocate_some h
  simpa using hk

/-- Extend Chain is refused, or lengthens the chain within its blocks, or takes the blocks that the new length needs. -/
theorem extendChain_cases (p : Port) (n : ChainNo) (count : Word) (s : State) :
    (extendChain p n count s).1 = s ∨
    ∃ len, s.recs[n].length ≤ len ∧ len ≤ 8192 ∧
      ((blocksFor len = blocksFor s.recs[n].length ∧ (extendChain p n count s).1 = s.lengthen n len) ∨
       ∃ bs t, s.allocate bs.length = some (bs, t) ∧ bs.length + blocksFor s.recs[n].length = blocksFor len ∧
         (extendChain p n count s).1 = (t.grow n p bs).lengthen n len) := by
  have hmono : blocksFor s.recs[n].length ≤ blocksFor (s.recs[n].length + count.toNat) :=
    Nat.div_le_div_right (by omega)
  unfold extendChain
  dsimp only
  split
  · exact .inl rfl
  split
  · exact .inl rfl
  next hlen =>
  refine .imp_right (fun h => ⟨_, Nat.le_add_right _ _, Nat.not_lt.mp hlen, h⟩) ?_
  split
  · next hk => exact .inr (.inl ⟨by omega, rfl⟩)
  split
  · exact .inl rfl
  split
  · exact .inl rfl
  · next bs t ha =>
    have hbs := allocate_length ha
    exact .inr (.inr ⟨bs, t, hbs ▸ ha, by omega, rfl⟩)

/-- A byte of an Append Data stops it, or is accepted, in its block or in a new one. -/
theorem appendByte_cases (p : Port) (st : Stream) (x : Byte) (s : State) :
    (∃ why, s.appendByte p st x = s.appendStop p st why) ∨
    (s.recs[st.ref.num].length % 128 ≠ 0 ∧ s.appendByte p st x = s.appendAccept p st x) ∨
    (s.recs[st.ref.num].length % 128 = 0 ∧ s.recs[st.ref.num].blocks.length < 64 ∧
      ∃ bs t, s.allocate 1 = some (bs, t) ∧
        s.appendByte p st x = (t.grow st.ref.num p bs).appendAccept p st x) := by
  unfold State.appendByte
  dsimp only
  split
  · next h => exact .inr (.inl ⟨h, rfl⟩)
  next hlen =>
  split
  · exact .inl ⟨_, rfl⟩
  next hblocks =>
  split
  · exact .inl ⟨_, rfl⟩
  split
  · exact .inl ⟨_, rfl⟩
  · next bs t ha => exact .inr (.inr ⟨Decidable.not_not.mp hlen, Nat.not_le.mp hblocks, bs, t, ha, rfl⟩)

/-- The commands that R12 gives to the owner alone. -/
theorem chainCheck_owned {s : State} {c : Cmd} {p : Port} {ops : List Byte} {n : ChainNo}
    (h : s.chainCheck c p ops = .ok n) (hc : ∀ row ∈ roleRows c, row.1 = .owner) : s.recs[n].life.owner = some p := by
  obtain ⟨-, -, -, row, hrow, hrole, -⟩ := chainCheck_ok_iff h
  rw [hc row hrow] at hrole
  simpa [-Fin.getElem_fin, Life.hasRole] using hrole

/-- A stream that writes is taken on an OPEN record of the port. -/
theorem chainCheck_writes {s : State} {kind : StreamKind} {p : Port} {ops : List Byte} {n : ChainNo}
    (h : s.chainCheck kind.cmd p ops = .ok n) (hk : kind ≠ .read) : ∃ l, s.recs[n].life = .opened p l := by
  obtain ⟨-, -, -, row, hrow, hrole, hphase⟩ := chainCheck_ok_iff h
  have hr : row = (.owner, [.opened]) := by cases kind <;> simp_all [StreamKind.cmd, roleRows]
  subst hr
  cases hl : s.recs[n].life with
  | opened o l => exact ⟨l, by simpa [-Fin.getElem_fin, Life.hasRole, Life.owner, hl] using hrole⟩
  | _ => simp [-Fin.getElem_fin, hl, Life.phase] at hphase

/-- A byte accepted changes the stream's count and the record's length. -/
theorem piusAgree_appendAccept {t : State} {p : Port} {st : Stream} (x : Byte) (h : PiusAgree t)
    (hs : t.pius[p].stream = some st) : PiusAgree (t.appendAccept p st x) := by
  have hrec := h.setRec (n := st.ref.num)
    (r := { t.recs[st.ref.num] with length := t.recs[st.ref.num].length + 1 }) rfl id fun _ l e => .inr ⟨l, e⟩
  exact hrec.setPiu ((hrec p).goesOn hs rfl rfl rfl)

/-! ### Invariants of the stock -/

/-- What the Block Store and the Chain Table hold, the leases aside. -/
def State.stock (s : State) :
    Memory × List Nat × List Nat × Option Clearing × Vector ChainRec 64 × Vector Nat 4 × Vector Nat 4 :=
  (s.store, s.free, s.clearQ, s.clearEng, s.recs, s.chBlocks, s.chChains)

/-- An invariant of the stock, by the operations it survives: what leaves the stock alone, a record's change of state
under one charge, Open Chain, Adopt Chain, the vacate, Extend Chain, an appended byte, the line writes, the Clear
Engine's rows, the initialization pass and device reset. Where the agreement of the PIUs is asked for (k), an appended
byte meets its owner's OPEN record. -/
structure StockInv (k : Prop) (Q : State → Prop) : Prop where
  frame {s t : State} : t.stock = s.stock → Q s → Q t
  relabel {s : State} {n : ChainNo} {l : Life} : Q s → s.recs[n].life ≠ .vacant → l ≠ .vacant →
    l.charged = s.recs[n].life.charged → Q (s.setRec n { s.recs[n] with life := l })
  openAt {s : State} {n : ChainNo} (p : Port) (tag : Word) : Q s → s.recs[n].life = .vacant → Q (s.openAt n p tag)
  adopt {s : State} {n : ChainNo} {d : Delivery} {l : Label} {c : Word} (p : Port) : Q s →
    s.recs[n].life = .delivering d l c → Q (s.adopt n p d l c)
  vacate {s : State} (n : ChainNo) : Q s → Q (s.vacate n)
  extend {s : State} {n : ChainNo} {p : Port} (count : Word) : Q s → s.recs[n].life.owner = some p →
    Q (extendChain p n count s).1
  append {s : State} {p : Port} {st : Stream} (x : Byte) : Q s →
    (k → ∃ l, s.recs[st.ref.num].life = .opened p l) → Q (s.appendByte p st x)
  write {s : State} (base : Nat) (cells : List (Option Byte)) : Q s →
    Q { s with store := Memory.writeCells s.store base cells }
  clearingStart {s : State} : Q s → Leaves Q (execClearingStart s)
  clearLineWrite {s : State} : Q s → Leaves Q (execClearLineWrite s)
  initPass {s : State} : Q s → Q { s with store := [], ready := true }
  deviceReset {s : State} (resetn : Bool) : Q s → Q (s.deviceReset resetn)

/-- An invariant of the stock, and, where it is asked for (k), the PIUs in agreement with the records. With k False
nothing is said of the links; with k True the two invariants of the links are carried along. -/
def Kept (k : Prop) (Q : State → Prop) (s : State) : Prop := (k → PiusAgree s) ∧ Q s

/-- Port p has no stream open, where the agreement of the PIUs is asked for. -/
def Idle (k : Prop) (s : State) (p : Port) : Prop := k → s.pius[p].stream = none

theorem Idle.deselect {k : Prop} {s : State} {p : Port} (h : Idle k s p) : Idle k (s.deselect p) p := fun hk => by
  rw [State.deselect_pius, get_set, if_pos rfl]
  exact h hk

/-- The records are part of the stock. -/
theorem stock_recs {s t : State} (h : t.stock = s.stock) : t.recs = s.recs := congrArg (·.2.2.2.2.1) h

section Operations
variable {k : Prop} {Q : State → Prop} {s : State} (K : StockInv k Q)
include K

theorem Kept.frame {t : State} (h : Kept k Q s) (hs : t.stock = s.stock) (hp : t.pius = s.pius) : Kept k Q t :=
  ⟨fun hk => (h.1 hk).congr (stock_recs hs) hp, K.frame hs h.2⟩

/-! ### Changes of a PIU -/

theorem Kept.setPiu {p : Port} {u : Piu} (h : Kept k Q s) (hu : PiusAgree s → k → u.Agrees s.recs p) :
    Kept k Q (s.setPiu p u) :=
  ⟨fun hk => (h.1 hk).setPiu (hu (h.1 hk) hk), K.frame (s := s) rfl h.2⟩

/-- The link keeps its state or carries no command past its command byte, and the stream is left alone. -/
theorem Kept.quiet {p : Port} {u : Piu} (h : Kept k Q s) (hl : u.link = s.pius[p].link ∨ u.link.Off)
    (hs : u.stream = s.pius[p].stream) : Kept k Q (s.setPiu p u) :=
  h.setPiu K fun ha _ => hl.elim (fun e => (ha p).congr e hs) fun e => (ha p).off e hs

/-- A command other than an open stream's waits for operands or enters BODY. -/
theorem Kept.enter {p : Port} {u : Piu} (h : Kept k Q s) (hi : Idle k s p) (hl : u.link.Needs)
    (hs : u.stream = s.pius[p].stream) : Kept k Q (s.setPiu p u) :=
  h.setPiu K fun _ hk => Piu.agrees_of_idle (hs.trans (hi hk)) hl

theorem Kept.goesOn {p : Port} {u : Piu} {st st' : Stream} (h : Kept k Q s) (hst : s.pius[p].stream = some st)
    (hl : u.link = s.pius[p].link) (hs : u.stream = some st') (hstand : st'.standing = st.standing) :
    Kept k Q (s.setPiu p u) :=
  h.setPiu K fun ha _ => (ha p).goesOn hst hl hs hstand

/-- A stream is over. -/
theorem Kept.over {p : Port} {u : Piu} (h : Kept k Q s) (hl : u.link = s.pius[p].link) (hs : u.stream = none) :
    Kept k Q (s.setPiu p u) :=
  h.setPiu K fun ha _ => Piu.agrees_of_idle hs (hl ▸ (ha p).1)

theorem Kept.wire (h : Kept k Q s) (p : Port) (w : Wire) : Kept k Q (s.setWire p w) := h.quiet K (.inl rfl) rfl
theorem Kept.byteEnd (h : Kept k Q s) (p : Port) : Kept k Q (s.byteEnd p) := h.wire K p _
theorem Kept.deselect (h : Kept k Q s) (p : Port) : Kept k Q (s.deselect p) := h.quiet K (.inr (.inl rfl)) rfl
theorem Kept.record (h : Kept k Q s) (p : Port) (c : Byte) (e : Ending) : Kept k Q (s.record p c e) :=
  h.quiet K (.inl rfl) rfl
theorem Kept.ignoring (h : Kept k Q s) (p : Port) (x : Byte) : Kept k Q (s.setLink p (.ignoring x)) :=
  h.quiet K (.inr (.inr (.inr ⟨x, rfl⟩))) rfl
theorem Kept.body (h : Kept k Q s) {p : Port} (hi : Idle k s p) (c : Cmd) (ops : List Byte) (b : Body) :
    Kept k Q (s.setLink p (.body c ops b)) :=
  h.enter K hi (Link.needs_body c ops b) rfl
theorem Kept.offer (h : Kept k Q s) (p : Port) (m : Notice) : Kept k Q (s.offer p m) := h.frame K rfl rfl
theorem Kept.loadLease (h : Kept k Q s) (n : ChainNo) : Kept k Q (s.loadLease n) := h.frame K rfl rfl
theorem Kept.linkError (h : Kept k Q s) (p : Port) (c : Byte) (e : Ending) : Kept k Q (s.linkError p c e) :=
  ((h.deselect K p).record K p c e).frame K rfl rfl

/-! ### Records: open, seal, unseal, hand, take, recall, complete -/

/-- A record in use takes another state under the same charge; where that state leaves OPEN, its owner has no stream. -/
theorem Kept.relabel {n : ChainNo} {l : Life} (h : Kept k Q s) (hv : s.recs[n].life ≠ .vacant) (hl : l ≠ .vacant)
    (hc : l.charged = s.recs[n].life.charged) (ho : ∀ q lab, s.recs[n].life = .opened q lab → Idle k s q) :
    Kept k Q (s.setRec n { s.recs[n] with life := l }) :=
  ⟨fun hk => (h.1 hk).setRec rfl (fun _ => hl) fun q lab e => .inl (ho q lab e hk), K.relabel h.2 hv hl hc⟩

/-- The owner's record, the owner without a stream. -/
theorem Kept.relabel_owned {n : ChainNo} {p : Port} {l : Life} (h : Kept k Q s) (ho : s.recs[n].life.owner = some p)
    (hi : Idle k s p) (hc : l.charged = some p) : Kept k Q (s.setRec n { s.recs[n] with life := l }) := by
  refine h.relabel K (ne_vacant_of_owner ho) (fun e => by simp [e, Life.charged] at hc) (hc.trans ?_) fun q lab e => ?_
  · cases hl : s.recs[n].life with
    | vacant | delivering => simp [-Fin.getElem_fin, hl, Life.owner] at ho
    | _ => simpa [-Fin.getElem_fin, hl, Life.owner, Life.charged, eq_comm] using ho
  · rw [e] at ho
    exact Option.some.inj ho ▸ hi

/-- A delivery takes another state under its origin's charge. -/
theorem Kept.relabel_delivering {n : ChainNo} {d : Delivery} {lab : Label} {c : Word} {l : Life} (h : Kept k Q s)
    (hd : s.recs[n].life = .delivering d lab c) (hc : l.charged = some d.origin) :
    Kept k Q (s.setRec n { s.recs[n] with life := l }) :=
  h.relabel K (by simp [-Fin.getElem_fin, hd]) (fun e => by simp [e, Life.charged] at hc) (by rw [hc, hd]; rfl)
    fun q lab' e => by simp [-Fin.getElem_fin, hd] at e

theorem Kept.openChain (h : Kept k Q s) (p : Port) (tag : Word) : Kept k Q (openChain p tag s).1 := by
  unfold Machine.openChain
  split
  · exact h
  split
  · exact h
  · next n hn =>
    have hv : s.recs[n].life = .vacant := phase_vacant.mp (by simpa using List.find?_some hn)
    refine ⟨fun hk => ?_, K.openAt p tag h.2 hv⟩
    exact ((h.1 hk).setRec (n := n)
      (r := { gen := s.recs[n].gen, life := .opened p ⟨tag, 0⟩, length := 0, blocks := [] })
      rfl (fun hne => absurd hv hne) fun q l e => by simp [-Fin.getElem_fin, hv] at e).congr rfl rfl

theorem Kept.placeSeal {n : ChainNo} {p : Port} (h : Kept k Q s) (ho : s.recs[n].life.owner = some p)
    (hi : Idle k s p) (l : Label) : Kept k Q (s.placeSeal n p l) :=
  (h.relabel_owned K (l := .sealing p l) ho hi rfl).frame K rfl rfl

theorem Kept.unseal {n : ChainNo} {p : Port} (h : Kept k Q s) (ho : s.recs[n].life.owner = some p)
    (hi : Idle k s p) (l : Label) : Kept k Q (s.unseal n p l) :=
  (h.relabel_owned K (l := .opened p l) ho hi rfl).frame K (by simp [State.unseal, State.stock])
    (by simp [State.unseal])

theorem Kept.handChain {n : ChainNo} {p : Port} (h : Kept k Q s) (ho : s.recs[n].life.owner = some p)
    (hi : Idle k s p) (mask : Byte) : Kept k Q (handChain p n mask s).1 := by
  unfold Machine.handChain
  dsimp only
  split
  · exact h
  split
  · exact h
  split
  · exact h
  · exact (h.relabel_owned K (l := .delivering (Delivery.start p (mask.setWidth 4)) (s.recs[n].life.label.getD ⟨0, 0⟩)
      (s.recs[n].life.check.getD 0)) ho hi rfl).frame K rfl rfl

theorem Kept.takeLive (h : Kept k Q s) (p : Port) (ref : ChainRef) : Kept k Q (s.takeLive p ref) := by
  unfold State.takeLive
  dsimp only
  split
  · next d l c hd =>
    split
    · exact (h.relabel_delivering K
        (l := .delivering { d with pend := without d.pend p, hold := withPort d.hold p } l c) hd rfl).loadLease K _
    · exact h
  all_goals exact h

theorem Kept.takeInbound (h : Kept k Q s) (p : Port) (body : Body) : Kept k Q (takeInbound p body s).1 := by
  have hset (q : InQueue) : Kept k Q (s.setInq p q) := h.frame K rfl rfl
  unfold Machine.takeInbound
  split
  · split
    · exact h
    split
    · unfold takeHead
      dsimp only
      split
      · exact hset _
      · exact (hset _).takeLive K p _
    · exact h
  all_goals exact h

theorem Kept.recallChain (h : Kept k Q s) (n : ChainNo) : Kept k Q (recallChain n s).1 := by
  unfold Machine.recallChain
  split
  · next d l c hd =>
    split
    · exact h
    · exact (h.relabel_delivering K (l := .sealed d.origin l c) hd rfl).frame K rfl rfl
  all_goals exact h

theorem Kept.adoptChain (h : Kept k Q s) (p : Port) (n : ChainNo) : Kept k Q (adoptChain p n s).1 := by
  unfold Machine.adoptChain
  split
  · next d l c hd =>
    split
    · exact h
    split
    · exact h
    split
    · exact h
    split
    · exact h
    refine ⟨fun hk => ?_, K.adopt p h.2 hd⟩
    exact ((h.1 hk).setRec (n := n) (r := { s.recs[n] with life := .sealed p ⟨l.tag, l.hops + 1⟩ c })
      rfl (by simp) fun q l e => by simp [-Fin.getElem_fin, hd] at e).congr (by simp [State.adopt])
      (by simp [State.adopt])
  all_goals exact h

/-- A completion acts on a SEALING record, whose owner keeps it. -/
theorem Kept.complete (h : Kept k Q s) (run : SealRun) : Kept k Q (s.complete run) := by
  unfold State.complete
  dsimp only
  split
  · next o l hl =>
    split
    · exact (h.relabel K (by simp [-Fin.getElem_fin, hl]) (l := .sealed o l run.reg) (by simp) (by rw [hl]; rfl)
        fun q lab e => by simp [-Fin.getElem_fin, hl] at e).offer K _ _
    · exact h
  all_goals exact h

/-! ### Vacate, departure, expiry, withdrawal -/

theorem Kept.vacate (h : Kept k Q s) (n : ChainNo) : Kept k Q (s.vacate n) :=
  ⟨fun hk => (h.1 hk).vacate n, K.vacate n h.2⟩

theorem Kept.depart (h : Kept k Q s) (p : Port) (how : Departure) (n : ChainNo) : Kept k Q (s.depart p how n) := by
  unfold State.depart
  split
  · next d l c hd =>
    have hset : Kept k Q (s.setRec n { s.recs[n] with life := .delivering (d.leave p how) l c }) :=
      h.relabel_delivering K hd (congrArg some (d.leave_origin p how))
    dsimp only
    split
    · exact (hset.offer K _ _).vacate K n
    · exact hset
  all_goals exact h

theorem Kept.releaseChain (h : Kept k Q s) (p : Port) (n : ChainNo) (x : Byte) :
    Kept k Q (releaseChain p n x s).1 := by
  unfold Machine.releaseChain State.releaseBy
  split
  · exact h
  · dsimp only
    split
    · exact h.depart K p _ n
    · exact (h.depart K p _ n).loadLease K n
  · exact h

theorem Kept.expire (h : Kept k Q s) (n : ChainNo) : Kept k Q (s.expire n) :=
  (h.frame K (by simp [State.stock]) (by simp)).vacate K n

theorem Kept.withdraw (h : Kept k Q s) (p : Port) (res : ResultRec) : Kept k Q (s.withdraw p res) := by
  have hfold : Kept k Q ((s.withdrawOrder p).foldl (State.withdrawFrom p) s) := by
    generalize s.withdrawOrder p = l
    induction l generalizing s with
    | nil => exact h
    | cons n l ih =>
      refine ih ?_
      unfold State.withdrawFrom
      split
      · exact h.vacate K n
      · exact h.depart K p _ n
  have hset := hfold.setPiu K (p := p) fun ha _ => (ha p).withdraw res
  exact hset.frame K rfl rfl

theorem Kept.commitSettings (h : Kept k Q s) (p : Port) : Kept k Q (commitSettings p s) := by
  unfold Machine.commitSettings
  split
  · exact h.record K _ _ _
  split
  · exact h.record K _ _ _
  next staged _ _ _ =>
  have hall : Kept k Q ((s.applySettings staged).withdrawAll (s.disables staged)) := by
    have happly : Kept k Q (s.applySettings staged) := h.frame K rfl rfl
    unfold State.withdrawAll
    generalize (s.applySettings staged).portOrder (s.disables staged) = l
    generalize s.applySettings staged = t at happly
    induction l generalizing t with
    | nil => exact happly
    | cons q l ih => exact ih _ (happly.withdraw K q disabledResult)
  have hc : Kept k Q (s.commit p staged) := hall.frame K rfl rfl
  unfold State.recordCommit
  split
  · exact hc.record K _ _ _
  · exact hc

/-! ### Growth -/

theorem Kept.extendChain {n : ChainNo} {p : Port} (h : Kept k Q s) (ho : s.recs[n].life.owner = some p) (count : Word) :
    Kept k Q (extendChain p n count s).1 := by
  refine ⟨fun hk => ?_, K.extend count h.2 ho⟩
  have hlengthen {t : State} (ht : PiusAgree t) (len : Nat) : PiusAgree (t.lengthen n len) :=
    (ht.setRec (n := n) (r := { t.recs[n] with length := len }) rfl id fun _ l e => .inr ⟨l, e⟩).congr rfl rfl
  have ha := h.1 hk
  obtain e | ⟨len, -, -, ⟨-, e⟩ | ⟨bs, t, halloc, -, e⟩⟩ := extendChain_cases p n count s <;> rw [e]
  · exact ha
  · exact hlengthen ha len
  · obtain ⟨-, -, rfl⟩ := allocate_some halloc
    refine hlengthen ?_ len
    exact (ha.setRec (n := n) (r := { s.recs[n] with blocks := s.recs[n].blocks ++ bs }) rfl id
      fun _ l e => .inr ⟨l, e⟩).congr rfl rfl

theorem Kept.appendByte {p : Port} {st : Stream} (h : Kept k Q s) (hst : s.pius[p].stream = some st)
    (hopen : k → ∃ l, s.recs[st.ref.num].life = .opened p l) (x : Byte) : Kept k Q (s.appendByte p st x) := by
  refine ⟨fun hk => ?_, K.append x h.2 hopen⟩
  have ha := h.1 hk
  obtain ⟨why, e⟩ | ⟨-, e⟩ | ⟨-, -, bs, t, halloc, e⟩ := appendByte_cases p st x s <;> rw [e]
  · exact ha.setPiu ((ha p).goesOn hst rfl rfl rfl)
  · exact piusAgree_appendAccept x ha hst
  · obtain ⟨-, -, rfl⟩ := allocate_some halloc
    refine piusAgree_appendAccept x ?_ hst
    exact (ha.setRec (n := st.ref.num)
      (r := { s.recs[st.ref.num] with blocks := s.recs[st.ref.num].blocks ++ bs }) rfl id
      fun _ l e => .inr ⟨l, e⟩).congr rfl rfl

end Operations
end Sys2Proof.Machine
end

section
/-! PROOFS. The stock across every row, and across a step: the course of a link command, the streams, the part's own
rows. -/

namespace Sys2Proof.Machine

/-- The delivery of a byte counts it, and leaves the stream's standing. -/
theorem Stream.deliver_standing (st : Stream) (len : Nat) : (st.deliver len).standing = st.standing := by
  unfold Stream.deliver
  split
  · rfl
  · split <;> rfl

/-- A byte's end leaves the link and the stream. -/
theorem State.byteEnd_piu (s : State) (p : Port) : (s.byteEnd p).pius[p] = { s.pius[p] with wire := Wire.idle } := by
  rw [State.byteEnd_pius, get_set, if_pos rfl]

section Rows
variable {k : Prop} {Q : State → Prop} {s : State} (K : StockInv k Q)
include K

/-! ### The course of a command -/

theorem ignoredBeat_kept {p : Port} {b : Beat} (h : Kept k Q s) : Leaves (Kept k Q) (ignoredBeat p b s) := by
  cases b <;> simp [ignoredBeat, h, h.deselect K]

theorem codeWhole_kept {c : Cmd} {p : Port} {enter : List Byte → State → State} (h : Kept k Q s)
    (henter : Idle k s p → Kept k Q (enter [] s)) : Leaves (Kept k Q) (codeWhole c p enter s) := by
  unfold codeWhole
  split
  · simpa using h.ignoring K p _
  split
  · simp
  next hstream =>
  have hi : Idle k s p := fun _ => by simpa [-Fin.getElem_fin] using hstream
  split
  · simpa using henter hi
  next hcount =>
  refine (leaves_next _ _).mpr (h.enter K hi ?_ rfl)
  rintro c' ops' ⟨⟩
  exact Nat.pos_of_ne_zero hcount

theorem operandWhole_kept {c : Cmd} {p : Port} {ops : List Byte} {x : Byte} {enter : List Byte → State → State}
    (h : Kept k Q s) (hi : Idle k s p) (henter : ∀ ops, Kept k Q (enter ops s)) :
    Leaves (Kept k Q) (operandWhole c p ops x enter s) := by
  unfold operandWhole
  split
  · next hcount =>
    refine (leaves_next _ _).mpr (h.enter K hi ?_ rfl)
    rintro c' ops' ⟨⟩
    exact hcount
  · simpa using henter _

theorem bodyRise_kept {c : Cmd} {p : Port} {ops : List Byte} {b : Body} {close : List Byte → Body → State → State}
    (h : Kept k Q s) (hclose : ∀ ops body, Kept k Q (close ops body (s.deselect p))) :
    Kept k Q (bodyRise c p ops b close s) := by
  cases b
  case ended => exact h.deselect K p
  case refused e => exact (h.deselect K p).record K p _ e
  all_goals exact hclose _ _

/-- The course of a command keeps what its entry into BODY and its close at select rise keep, both taken at a port
without an open stream. -/
theorem linkBeat_kept {c : Cmd} {p : Port} {b : Beat} {enter : List Byte → State → State}
    {close : List Byte → Body → State → State} (h : Kept k Q s)
    (henter : Idle k s p → ∀ ops, Kept k Q (enter ops s))
    (hclose : Idle k s p → ∀ ops body, Kept k Q (close ops body (s.deselect p))) :
    Leaves (Kept k Q) (linkBeat c p b enter close s) := by
  unfold linkBeat
  split
  · simp
  next hok =>
  split
  · simpa using h
  split
  · simp
  split
  · exact ignoredBeat_kept K h
  · split
    · exact ignoredBeat_kept K h
    · simp
  · cases b
    case code => exact codeWhole_kept K h fun hi => henter hi []
    all_goals simp
  · next hl =>
    cases b
    case operand =>
      have hi : Idle k s p := fun hk => (h.1 hk p).idle_of_operand hl
      dsimp only
      split
      · exact operandWhole_kept K h hi (henter hi)
      · simp
    all_goals simp
  · next c' ops body hl =>
    cases b
    case pass =>
      dsimp only
      split
      · next e => exact (leaves_next _ _).mpr (h.setPiu K fun ha _ => (ha p).pass (e ▸ hl) rfl rfl)
      · simp
    case rise =>
      dsimp only
      split
      · next e =>
        have hcls : c'.cls ≠ .stream := by simpa [beatOk, e] using hok
        exact (leaves_next _ _).mpr
          (bodyRise_kept K h (hclose fun hk => (h.1 hk p).idle_of_body hl (.inl hcls)))
      · simp
    all_goals simp

theorem queryBeat_kept {c : Cmd} {p : Port} {b : Beat} {always : Bool}
    {copy : List Byte → State → List Byte × List Byte} (h : Kept k Q s) :
    Leaves (Kept k Q) (queryBeat c p b always copy s) := by
  refine linkBeat_kept K h (fun hi ops => ?_) fun _ _ _ => h.deselect K p
  split <;> exact h.body K hi _ _ _

theorem actionBeat_kept {c : Cmd} {p : Port} {b : Beat} {act : List Byte → State → State} (h : Kept k Q s)
    (hact : Idle k (s.deselect p) p → ∀ ops, Kept k Q (act ops (s.deselect p))) :
    Leaves (Kept k Q) (actionBeat c p b act s) := by
  refine linkBeat_kept K h (fun hi ops => h.body K hi _ _ _) fun hi ops _ => ?_
  split
  · exact hact hi.deselect ops
  · exact (h.deselect K p).record K _ _ _

theorem recordedBeat_kept {c : Cmd} {p : Port} {b : Beat} {act : List Byte → State → State × Ending}
    (h : Kept k Q s) (hact : Idle k (s.deselect p) p → ∀ ops, Kept k Q (act ops (s.deselect p)).1) :
    Leaves (Kept k Q) (recordedBeat c p b act s) :=
  actionBeat_kept K h fun hi ops => (hact hi ops).record K _ _ _

theorem chainBeat_kept {c : Cmd} {p : Port} {b : Beat} {act : ChainNo → List Byte → State → State × Ending}
    (h : Kept k Q s) (hact : Idle k (s.deselect p) p → ∀ n ops, (s.deselect p).chainCheck c p ops = .ok n →
      Kept k Q (act n ops (s.deselect p)).1) :
    Leaves (Kept k Q) (chainBeat c p b act s) := by
  refine recordedBeat_kept K h fun hi ops => ?_
  split
  · exact h.deselect K p
  · next n hn => exact hact hi n ops hn

theorem takeBeat_kept {c : Cmd} {p : Port} {b : Beat} {fixed : State → Body}
    {decide : Body → State → State × Ending} (h : Kept k Q s)
    (hdecide : ∀ body, Kept k Q (decide body (s.deselect p)).1) :
    Leaves (Kept k Q) (takeBeat c p b fixed decide s) := by
  refine linkBeat_kept K h (fun hi ops => ?_) fun _ _ body => (hdecide body).record K _ _ _
  split <;> exact h.body K hi _ _ _

/-! ### Actions that touch no chain -/

theorem Kept.takeNotice (h : Kept k Q s) (p : Port) (body : Body) : Kept k Q (takeNotice p body s).1 := by
  unfold Machine.takeNotice
  split
  · split
    · exact h
    · exact h.frame K rfl rfl
  all_goals exact h

theorem Kept.setEnables (h : Kept k Q s) (p : Port) (m : Byte) : Kept k Q (setEnables p m s).1 := by
  unfold Machine.setEnables
  split
  · exact h
  · exact h.frame K rfl rfl

theorem Kept.acknowledgeAttention (h : Kept k Q s) (p : Port) (m : Byte) :
    Kept k Q (acknowledgeAttention p m s).1 := by
  unfold Machine.acknowledgeAttention
  split
  · exact h
  · exact h.frame K rfl rfl

theorem Kept.claimSettings (h : Kept k Q s) (p : Port) : Kept k Q (claimSettings p s).1 := by
  unfold Machine.claimSettings
  split
  · exact h.frame K rfl rfl
  · split <;> exact h

theorem Kept.writeSetting (h : Kept k Q s) (p : Port) (id : Byte) (v : Word) : Kept k Q (writeSetting p id v s).1 := by
  unfold Machine.writeSetting
  split
  · exact h
  · exact h
  · split
    · exact h.frame K rfl rfl
    · exact h

theorem Kept.abandonSettings (h : Kept k Q s) (p : Port) : Kept k Q (abandonSettings p s).1 := by
  unfold Machine.abandonSettings
  split
  · exact h
  · exact h.frame K rfl rfl

/-! ### Streams -/

/-- A stream is refused, or begins on the record that the checks have passed. -/
theorem Kept.takeStream {p : Port} (h : Kept k Q s) (hi : Idle k s p) (kind : StreamKind) (ops : List Byte) :
    Kept k Q (s.takeStream kind.cmd kind p ops) := by
  have hr (e : Ending) : Kept k Q (s.refuseStream kind.cmd p ops e) := h.body K hi _ _ _
  unfold State.takeStream
  generalize (if kind = .append then 0 else (opWord ops 2).toNat) = offset
  dsimp only
  split
  · exact hr _
  split
  · exact hr _
  next n hn =>
  split
  · exact hr _
  obtain ⟨-, -, hlive, -⟩ := chainCheck_ok_iff hn
  refine (h.loadLease K n).setPiu K fun _ _ => ⟨Link.needs_body _ _ _, ?_⟩
  rintro st ⟨⟩
  refine ⟨⟨by simp, ?_, by simp [Stream.initial]⟩, fun _ _ => ⟨rfl, hlive, chainCheck_writes hn⟩⟩
  rintro c' ops' b' ⟨⟩
  exact ⟨rfl, rfl, rfl⟩

theorem Kept.rewriteByte {p : Port} {st : Stream} (h : Kept k Q s) (hst : s.pius[p].stream = some st) (x : Byte) :
    Kept k Q (s.rewriteByte p st x) := by
  unfold State.rewriteByte
  dsimp only
  split <;> exact h.goesOn K hst rfl rfl rfl

theorem readNext_kept {p : Port} {st st' : Stream} (h : Kept k Q s) (hst : s.pius[p].stream = some st)
    (hstand : st'.standing = st.standing) : Leaves (Kept k Q) (s.readNext p st') := by
  unfold State.readNext
  dsimp only
  split
  · simp
  refine (leaves_next _ _).mpr ?_
  unfold Piu.shiftOut
  split <;> exact h.goesOn K hst rfl rfl hstand

/-- A data byte in: what the open stream does with it is done in its data phase. -/
theorem dataByteIn_kept {c : Cmd} {p : Port} {take : Stream → State → State} (h : Kept k Q s)
    (htake : ∀ ops st, s.pius[p].link = .body c ops .streaming → s.pius[p].stream = some st → st.deaf = false →
      Kept k Q (take st (s.byteEnd p))) : Leaves (Kept k Q) (dataByteIn c p take s) := by
  have hb := h.byteEnd K p
  unfold dataByteIn
  split
  · simpa using h
  split
  · simp
  split
  · simpa using h
  · simp
  · simp
  · split
    · simpa using h
    · simp
  next c' ops body hl =>
  split
  · simp
  next hc =>
  split
  · next st hst =>
    split
    · simpa using hb
    next hdeaf =>
    split
    · simp
    · simpa using htake ops st (Decidable.not_not.mp hc ▸ hl) hst (by simpa using hdeaf)
  all_goals simpa using hb

theorem execAppendDataByte_kept {p : Port} {x : Byte} (h : Kept k Q s) :
    Leaves (Kept k Q) (execAppendDataByte p x s) := by
  refine dataByteIn_kept K h fun ops st hl hst hdeaf => ?_
  refine (h.byteEnd K p).appendByte K (by rw [State.byteEnd_piu]; exact hst) (fun hk => ?_) x
  obtain ⟨hrevoked, -⟩ : st.revoked = false ∧ st.stopped.isSome = false := by simpa [Stream.deaf] using hdeaf
  obtain ⟨hkind, hearned⟩ := (h.1 hk p).unearned hl hst
  obtain ⟨-, hon⟩ := (h.1 hk p).2 st hst
  obtain ⟨-, -, hwrites⟩ := hon hrevoked hearned
  exact hwrites fun e => by simp [e, StreamKind.cmd] at hkind

theorem execRewriteDataByte_kept {p : Port} {x : Byte} (h : Kept k Q s) :
    Leaves (Kept k Q) (execRewriteDataByte p x s) :=
  dataByteIn_kept K h fun _ _ _ hst _ => (h.byteEnd K p).rewriteByte K (by rw [State.byteEnd_piu]; exact hst) x

theorem execReadData_kept {p : Port} {b : Beat} (h : Kept k Q s) : Leaves (Kept k Q) (execReadData p b s) := by
  unfold execReadData
  split
  · next hst =>
    split
    · simpa using h
    split
    · simp
    · exact readNext_kept K (h.byteEnd K p) (by rw [State.byteEnd_piu]; exact hst) rfl
  · exact linkBeat_kept K h (fun hi ops => h.takeStream K hi .read ops) fun _ _ _ => h.deselect K p

theorem execReadDataByte_kept {p : Port} (h : Kept k Q s) : Leaves (Kept k Q) (execReadDataByte p s) := by
  have hb := h.byteEnd K p
  unfold execReadDataByte
  split
  · simpa using h
  split
  · simp
  split
  · simpa using h
  · simp
  · simp
  · split
    · simpa using h
    · simp
  split
  · simp
  split
  · next hst _ =>
    split
    · simp
    · exact readNext_kept K hb (by rw [State.byteEnd_piu]; exact hst) (Stream.deliver_standing _ _)
  all_goals simpa using hb

theorem Kept.finishStream {p : Port} {st : Stream} (h : Kept k Q s) : Kept k Q (s.finishStream p st) :=
  (h.over K (p := p) (u := { s.pius[p] with stream := none, staging := Staging.reset }) rfl rfl).record K _ _ _

theorem Kept.closeStream {p : Port} {st : Stream} (h : Kept k Q s) (hst : s.pius[p].stream = some st) :
    Kept k Q (s.closeStream p st) := by
  have hd := h.deselect K p
  unfold State.closeStream
  split
  · have hpiu : (s.deselect p).pius[p] = s.pius[p].closed := by rw [State.deselect_pius, get_set, if_pos rfl]
    refine hd.setPiu K fun ha _ => (ha p).closing (st := st) ?_ ?_ rfl
    · rw [hpiu]; exact hst
    · rw [hpiu]; exact .inl rfl
  · exact hd.finishStream K

theorem execStreamClose_kept {p : Port} {b : CloseBeat} (h : Kept k Q s) :
    Leaves (Kept k Q) (execStreamClose p b s) := by
  have hd := h.deselect K p
  cases b
  case rise =>
    dsimp only [execStreamClose]
    unfold streamRise
    split
    · simpa using h
    split
    · simpa using hd
    · simp
    · simp
    · split
      · simpa using hd
      · simp
    split
    · simp
    split
    · split
      · next hst => simpa using h.closeStream K hst
      · simp
    · simpa using hd.record K _ _ _
    · simpa using hd
    all_goals simp
  case record =>
    dsimp only [execStreamClose]
    unfold streamRecord
    repeat' split
    all_goals simp [h, h.finishStream K]

theorem execStagingLineWrite_kept {p : Port} (h : Kept k Q s) : Leaves (Kept k Q) (execStagingLineWrite p s) := by
  unfold execStagingLineWrite
  split
  · simpa using h
  split
  · simp
  refine (leaves_next _ _).mpr ?_
  have hstore : Kept k Q { s with
      store := Memory.writeCells s.store s.pius[p].staging.base s.pius[p].staging.cells.toList
      arbPos := .piu p } :=
    ⟨fun hk => (h.1 hk).congr rfl rfl, K.frame (s := { s with store := _ }) rfl (K.write _ _ h.2)⟩
  exact hstore.setPiu K fun ha _ => (ha p).settle (fun st => s.recs[st.ref.num].length) rfl rfl

theorem execStagingLineFill_kept {p : Port} (h : Kept k Q s) : Leaves (Kept k Q) (execStagingLineFill p s) := by
  have harb : Kept k Q { s with arbPos := .piu p } := h.frame K rfl rfl
  unfold execStagingLineFill
  split
  · simpa using h
  split
  · simp
  · exact (leaves_next _ _).mpr (harb.quiet K (.inl rfl) rfl)

/-! ### The rows of a command -/

/-- A beat of any command's transaction. -/
theorem commandBeat_kept {c : Cmd} {p : Port} {b : Beat} (h : Kept k Q s) :
    Leaves (Kept k Q) (commandBeat c p b s) := by
  have hd := h.deselect K p
  cases c
  case appendData => exact linkBeat_kept K h (fun hi ops => h.takeStream K hi .append ops) fun _ _ _ => hd
  case rewriteData => exact linkBeat_kept K h (fun hi ops => h.takeStream K hi .rewrite ops) fun _ _ _ => hd
  case readData => exact execReadData_kept K h
  case openChain => exact recordedBeat_kept K h fun _ _ => hd.openChain K p _
  case extendChain =>
    exact chainBeat_kept K h fun _ n _ hn => hd.extendChain K (chainCheck_owned hn (by decide)) _
  case discardChain => exact chainBeat_kept K h fun _ n _ _ => hd.vacate K n
  case renewLease => exact chainBeat_kept K h fun _ n _ _ => hd.loadLease K n
  case sealChain => exact chainBeat_kept K h fun hi n _ hn => hd.placeSeal K (chainCheck_owned hn (by decide)) hi _
  case unsealChain => exact chainBeat_kept K h fun hi n _ hn => hd.unseal K (chainCheck_owned hn (by decide)) hi _
  case handChain => exact chainBeat_kept K h fun hi n _ hn => hd.handChain K (chainCheck_owned hn (by decide)) hi _
  case takeInbound => exact takeBeat_kept K h fun body => hd.takeInbound K p body
  case takeNotice => exact takeBeat_kept K h fun body => hd.takeNotice K p body
  case releaseChain => exact chainBeat_kept K h fun _ n _ _ => hd.releaseChain K p n _
  case adoptChain => exact chainBeat_kept K h fun _ n _ _ => hd.adoptChain K p n
  case recallChain => exact chainBeat_kept K h fun _ n _ _ => hd.recallChain K n
  case setEnables => exact recordedBeat_kept K h fun _ _ => hd.setEnables K p _
  case acknowledgeAttention => exact recordedBeat_kept K h fun _ _ => hd.acknowledgeAttention K p _
  case claimSettings => exact recordedBeat_kept K h fun _ _ => hd.claimSettings K p
  case writeSetting => exact recordedBeat_kept K h fun _ _ => hd.writeSetting K p _ _
  case abandonSettings => exact recordedBeat_kept K h fun _ _ => hd.abandonSettings K p
  case commitSettings => exact actionBeat_kept K h fun _ _ => hd.commitSettings K p
  case portReset => exact actionBeat_kept K h fun _ _ => hd.withdraw K p portResetResult
  all_goals exact queryBeat_kept K h

/-! ### The link's own rows -/

theorem execSelectRise_kept {p : Port} (h : Kept k Q s) : Leaves (Kept k Q) (execSelectRise p s) := by
  unfold execSelectRise
  repeat' split
  all_goals simp [h, h.deselect K]

theorem execFraming_kept {p : Port} {bits : Fin 8} (h : Kept k Q s) : Leaves (Kept k Q) (execFraming p bits s) := by
  unfold execFraming
  repeat' split
  all_goals simp [h, h.deselect K, h.linkError K]

theorem execUnknownCommand_kept {p : Port} {b : UnknownBeat} (h : Kept k Q s) :
    Leaves (Kept k Q) (execUnknownCommand p b s) := by
  unfold execUnknownCommand
  repeat' split
  all_goals simp [h, h.deselect K, h.ignoring K, h.byteEnd K, h.linkError K]

/-- The byte that the eighth bit makes whole is an event of its row. -/
theorem byteWhole_kept {p : Port} {x : Byte} (h : Kept k Q s) : Leaves (Kept k Q) (byteWhole p x s) := by
  unfold byteWhole
  split
  · simpa using h
  · split
    · exact commandBeat_kept K h
    · exact execUnknownCommand_kept K h
  · exact commandBeat_kept K h
  · unfold bodyByte
    split
    · exact execAppendDataByte_kept K h
    split
    · exact execRewriteDataByte_kept K h
    split
    · exact execReadDataByte_kept K h
    · exact commandBeat_kept K h
  · exact execUnknownCommand_kept K h

theorem holdPnDO_kept {p : Port} {level : Option Bool} {a : Answer} (ha : Leaves (Kept k Q) a) :
    Leaves (Kept k Q) (Answer.holdPnDO p level a) := by
  cases a with
  | next t =>
    have ht : Kept k Q t := ha t rfl
    simpa [Answer.holdPnDO] using ht.wire K p _
  | fault f => simp [Answer.holdPnDO]
  | refused r => simp [Answer.holdPnDO]

theorem execSelectFall_kept {w : PortEdge} (h : Kept k Q s) : Leaves (Kept k Q) (execSelectFall w s) := by
  unfold execSelectFall
  split
  · unfold selectFalls
    split
    · simp
    · exact (leaves_next _ _).mpr (h.quiet K (.inr (.inr (.inl rfl))) rfl)
  · unfold clockRises
    split
    · simpa using h
    split
    · simpa using h.wire K _ _
    exact holdPnDO_kept K (byteWhole_kept K (h.byteEnd K _))
  · unfold clockFalls
    split
    · simpa using h
    · simpa using h.wire K _ _

/-! ### The part's own rows -/

theorem execSealLineRead_kept (h : Kept k Q s) : Leaves (Kept k Q) (execSealLineRead s) := by
  unfold execSealLineRead
  split
  · split
    · simpa using h
    split
    · simp
    · exact (leaves_next _ _).mpr (h.frame K rfl rfl)
  · simpa using h

theorem execSealCompletion_kept (h : Kept k Q s) : Leaves (Kept k Q) (execSealCompletion s) := by
  unfold execSealCompletion
  split
  · next run _ =>
    split
    · exact (leaves_next _ _).mpr ((h.complete K run).frame K rfl rfl)
    · simpa using h
  · simpa using h

theorem execChainLeaseExpiry_kept {n : ChainNo} (h : Kept k Q s) : Leaves (Kept k Q) (execChainLeaseExpiry n s) := by
  unfold execChainLeaseExpiry
  split
  · split
    · simpa using h.expire K n
    · exact (leaves_next _ _).mpr (h.frame K rfl rfl)
  all_goals simpa using h

theorem execClaimLeaseExpiry_kept (h : Kept k Q s) : Leaves (Kept k Q) (execClaimLeaseExpiry s) := by
  have hend : Kept k Q s.endClaim := h.frame K rfl rfl
  unfold execClaimLeaseExpiry State.lapse
  split
  · split
    · exact (leaves_next _ _).mpr (hend.offer K _ _)
    · simpa using hend
  all_goals simpa using h

theorem execTick_kept (h : Kept k Q s) : Leaves (Kept k Q) (execTick s) := by
  unfold execTick
  split
  · exact (leaves_next _ _).mpr (h.frame K rfl rfl)
  · simpa using h

theorem execRefclkPeriod_kept (h : Kept k Q s) : Leaves (Kept k Q) (execRefclkPeriod s) := by
  unfold execRefclkPeriod
  split
  · simpa using h
  split <;> exact (leaves_next _ _).mpr (h.frame K rfl rfl)

/-- The Clear Engine's rows touch neither a record nor a PIU. -/
theorem execClearingStart_kept (h : Kept k Q s) : Leaves (Kept k Q) (execClearingStart s) := by
  intro t ht
  refine ⟨fun hk => ?_, K.clearingStart h.2 t ht⟩
  obtain ⟨hr, hp⟩ : t.recs = s.recs ∧ t.pius = s.pius := by
    unfold execClearingStart at ht
    split at ht <;> cases ht <;> exact ⟨rfl, rfl⟩
  exact (h.1 hk).congr hr hp

theorem execClearLineWrite_kept (h : Kept k Q s) : Leaves (Kept k Q) (execClearLineWrite s) := by
  intro t ht
  refine ⟨fun hk => ?_, K.clearLineWrite h.2 t ht⟩
  obtain ⟨hr, hp⟩ : t.recs = s.recs ∧ t.pius = s.pius := by
    unfold execClearLineWrite at ht
    split at ht
    · split at ht
      · cases ht
      split at ht
      · obtain rfl := Host.Outcome.next.inj ht
        simp [State.fillLine]
      · obtain rfl := Host.Outcome.next.inj ht
        simp [State.completeClearing, State.fillLine]
    · obtain rfl := Host.Outcome.next.inj ht
      exact ⟨rfl, rfl⟩
  exact (h.1 hk).congr hr hp

theorem execInitializationComplete_kept (h : Kept k Q s) : Leaves (Kept k Q) (execInitializationComplete s) := by
  unfold execInitializationComplete
  split
  · simpa using h
  · exact (leaves_next _ _).mpr ⟨fun hk => (h.1 hk).congr rfl rfl, K.initPass h.2⟩

theorem Kept.deviceReset (h : Kept k Q s) (resetn : Bool) : Kept k Q (s.deviceReset resetn) :=
  ⟨fun _ => piusAgree_deviceReset s resetn, K.deviceReset resetn h.2⟩

/-! ### Every row -/

theorem exec_kept (i : Instr) (h : Kept k Q s) : Leaves (Kept k Q) (exec i s) := by
  cases i
  case powerOn | resetnAssertion => exact (leaves_next _ _).mpr (h.deviceReset K _)
  case resetnRelease => exact (leaves_next _ _).mpr (h.frame K rfl rfl)
  case initializationComplete => exact execInitializationComplete_kept K h
  case selectFall w => exact execSelectFall_kept K h
  case framing p bits => exact execFraming_kept K h
  case unknownCommand p b => exact execUnknownCommand_kept K h
  case selectRise p => exact execSelectRise_kept K h
  case appendDataByte p x => exact execAppendDataByte_kept K h
  case rewriteDataByte p x => exact execRewriteDataByte_kept K h
  case readDataByte p => exact execReadDataByte_kept K h
  case streamClose p b => exact execStreamClose_kept K h
  case stagingLineWrite p => exact execStagingLineWrite_kept K h
  case stagingLineFill p => exact execStagingLineFill_kept K h
  case sealLineRead => exact execSealLineRead_kept K h
  case sealCompletion => exact execSealCompletion_kept K h
  case chainLeaseExpiry n => exact execChainLeaseExpiry_kept K h
  case claimLeaseExpiry => exact execClaimLeaseExpiry_kept K h
  case tick => exact execTick_kept K h
  case refclkPeriod => exact execRefclkPeriod_kept K h
  case clearingStart => exact execClearingStart_kept K h
  case clearLineWrite => exact execClearLineWrite_kept K h
  case readResult p b => exact commandBeat_kept K (c := .readResult) h
  case readAttention p b => exact commandBeat_kept K (c := .readAttention) h
  case readQueueStatus p b => exact commandBeat_kept K (c := .readQueueStatus) h
  case readFreeStatus p b => exact commandBeat_kept K (c := .readFreeStatus) h
  case readChainInfo p b => exact commandBeat_kept K (c := .readChainInfo) h
  case readSettings p b => exact commandBeat_kept K (c := .readSettings) h
  case identify p b => exact commandBeat_kept K (c := .identify) h
  case openChain p b => exact commandBeat_kept K (c := .openChain) h
  case appendData p b => exact commandBeat_kept K (c := .appendData) h
  case rewriteData p b => exact commandBeat_kept K (c := .rewriteData) h
  case readData p b => exact commandBeat_kept K (c := .readData) h
  case extendChain p b => exact commandBeat_kept K (c := .extendChain) h
  case sealChain p b => exact commandBeat_kept K (c := .sealChain) h
  case unsealChain p b => exact commandBeat_kept K (c := .unsealChain) h
  case discardChain p b => exact commandBeat_kept K (c := .discardChain) h
  case renewLease p b => exact commandBeat_kept K (c := .renewLease) h
  case handChain p b => exact commandBeat_kept K (c := .handChain) h
  case takeInbound p b => exact commandBeat_kept K (c := .takeInbound) h
  case releaseChain p b => exact commandBeat_kept K (c := .releaseChain) h
  case adoptChain p b => exact commandBeat_kept K (c := .adoptChain) h
  case recallChain p b => exact commandBeat_kept K (c := .recallChain) h
  case takeNotice p b => exact commandBeat_kept K (c := .takeNotice) h
  case setEnables p b => exact commandBeat_kept K (c := .setEnables) h
  case acknowledgeAttention p b => exact commandBeat_kept K (c := .acknowledgeAttention) h
  case claimSettings p b => exact commandBeat_kept K (c := .claimSettings) h
  case writeSetting p b => exact commandBeat_kept K (c := .writeSetting) h
  case commitSettings p b => exact commandBeat_kept K (c := .commitSettings) h
  case abandonSettings p b => exact commandBeat_kept K (c := .abandonSettings) h
  case portReset p b => exact commandBeat_kept K (c := .portReset) h

/-- The queue of commands is no part of the stock, and an empty one idles. -/
theorem step_kept (h : Kept k Q s) : Leaves (Kept k Q) (step s) := by
  unfold step
  split
  · simpa using h
  · exact exec_kept K _ (h.frame K rfl rfl)

end Rows
end Sys2Proof.Machine
end

section
/-! PROOFS. The canonical form of the store's list across a step (R18). -/

namespace Sys2Proof.Machine

theorem StoreInv.congr {s t : State} (h : StoreInv s) (hs : t.store = s.store) : StoreInv t := by
  unfold StoreInv
  rw [hs]
  exact h

theorem extendChain_store (p : Port) (n : ChainNo) (count : Word) (s : State) :
    (extendChain p n count s).1.store = s.store := by
  obtain e | ⟨len, -, -, ⟨-, e⟩ | ⟨bs, t, halloc, -, e⟩⟩ := extendChain_cases p n count s <;> rw [e]
  · rfl
  · obtain ⟨-, -, rfl⟩ := allocate_some halloc
    rfl

theorem appendByte_store (p : Port) (st : Stream) (x : Byte) (s : State) :
    (s.appendByte p st x).store = s.store := by
  obtain ⟨why, e⟩ | ⟨-, e⟩ | ⟨-, -, bs, t, halloc, e⟩ := appendByte_cases p st x s <;> rw [e]
  · rfl
  · rfl
  · obtain ⟨-, -, rfl⟩ := allocate_some halloc
    rfl

/-- Only the line writes and the initialization pass change the store, and each leaves its list canonical. -/
theorem storeInv_stock : StockInv False StoreInv where
  frame hs h := h.congr (congrArg (·.1) hs)
  relabel h _ _ _ := h.congr rfl
  openAt _ _ h _ := h.congr rfl
  adopt _ h _ := h.congr (by simp [State.adopt])
  vacate n h := h.congr (by simp)
  extend _ h _ := h.congr (extendChain_store _ _ _ _)
  append _ h _ := h.congr (appendByte_store _ _ _ _)
  write base cells h := Memory.wf_writeCells _ base cells h
  clearingStart h := by
    unfold execClearingStart
    split <;> exact (leaves_next _ _).mpr (h.congr rfl)
  clearLineWrite {s} h := by
    have hfill (c : Clearing) : StoreInv (s.fillLine c) := Memory.wf_writeCells _ _ _ h
    unfold execClearLineWrite
    split
    · next c _ =>
      split
      · simp
      split
      · exact (leaves_next _ _).mpr ((hfill c).congr rfl)
      · exact (leaves_next _ _).mpr ((hfill c).congr (by simp [State.completeClearing]))
    · simpa using h
  initPass _ := Memory.wf_nil
  deviceReset _ h := h.congr rfl

end Sys2Proof.Machine

namespace Sys2Proof.Proofs
open Machine

/-- Settles O52: the store's list is all that is looked at; the links play no part. -/
theorem storeStaysCanonical : Obligations.StoreStaysCanonical :=
  fun _ t h hs => (step_kept storeInv_stock ⟨False.elim, hs⟩ t h).2

end Sys2Proof.Proofs
end

section
/-! PROOFS. The blocks in their places (R20) and the lists at the length they need (R3), across every operation that
moves a block or changes a length. -/

namespace Sys2Proof.Machine

/-! ### A list of all the elements of a register file -/

/-- Replacing one element exchanges its part of the list. -/
theorem flatMap_set_perm {α β : Type} {m : Nat} (v : Vector α m) (n : Fin m) (x : α) (f : α → List β) :
    ((v.set n x).toList.flatMap f ++ f v[n]).Perm (v.toList.flatMap f ++ f x) := by
  have hlen : n.val < v.toList.length := by simp
  have hset : (v.set n x).toList = v.toList.take n.val ++ x :: v.toList.drop (n.val + 1) := by
    rw [Vector.toList_set, List.set_eq_take_append_cons_drop, if_pos hlen]
  have hv : v.toList = v.toList.take n.val ++ v[n] :: v.toList.drop (n.val + 1) := by
    have hget : v.toList[n.val] = v[n] := by simp
    rw [← hget, List.cons_getElem_drop_succ, List.take_append_drop]
  rw [hset]
  conv_rhs => rw [hv]
  classical
  simp only [List.flatMap_append, List.flatMap_cons, List.perm_iff_count, List.count_append]
  intro b
  omega

/-! ### Where the blocks are -/

theorem State.allBlocks_congr {s t : State} (hf : t.free = s.free) (hq : t.clearQ = s.clearQ)
    (he : t.clearEng = s.clearEng) (hr : t.recs = s.recs) : t.allBlocks = s.allBlocks := by
  unfold State.allBlocks
  rw [hf, hq, he, hr]

theorem State.count_allBlocks (s : State) (b : Nat) : s.allBlocks.count b =
    s.free.count b + s.clearQ.count b + (s.clearEng.map (·.block)).toList.count b +
      (s.recs.toList.flatMap (·.blocks)).count b := by
  simp only [State.allBlocks, List.count_append]

/-- A record's list is exchanged. -/
theorem State.setRec_allBlocks (s : State) (n : ChainNo) (r : ChainRec) (b : Nat) :
    (s.setRec n r).allBlocks.count b + s.recs[n].blocks.count b = s.allBlocks.count b + r.blocks.count b := by
  have h := (flatMap_set_perm s.recs n r (·.blocks)).count_eq b
  simp only [List.count_append] at h
  simp only [State.count_allBlocks, State.setRec_free, State.setRec_clearQ, State.setRec_clearEng, State.setRec_recs]
  omega

/-- Blocks handed back join the Clear Queue or the Free List. -/
theorem State.release_allBlocks (s : State) (l : List Nat) (b : Nat) :
    (s.release l).allBlocks.count b = s.allBlocks.count b + l.count b := by
  have hplaces : (s.release l).free.count b + (s.release l).clearQ.count b =
      s.free.count b + s.clearQ.count b + l.count b := by
    cases hc : s.committed.clearOnRelease
    · obtain ⟨hfree, hclearQ, -⟩ := State.release_free hc l
      rw [hfree, hclearQ, List.count_append]
      omega
    · obtain ⟨hclearQ, hfree, -⟩ := State.release_clear hc l
      rw [hfree, hclearQ, List.count_append]
      omega
  simp only [State.count_allBlocks, State.release_clearEng, State.release_recs]
  omega

/-- Blocks allocated leave the Free List. -/
theorem allocate_allBlocks {s t : State} {k : Nat} {bs : List Nat} (h : s.allocate k = some (bs, t)) (b : Nat) :
    t.allBlocks.count b + bs.count b = s.allBlocks.count b := by
  obtain ⟨-, rfl, rfl⟩ := allocate_some h
  have hfree : (s.free.take k).count b + (s.free.drop k).count b = s.free.count b := by
    rw [← List.count_append, List.take_append_drop]
  simp only [State.count_allBlocks, State.freeFalls_free, State.freeFalls_clearQ, State.freeFalls_clearEng,
    State.freeFalls_recs]
  omega

/-- A vacate moves the record's blocks. -/
theorem State.vacate_allBlocks (s : State) (n : ChainNo) (b : Nat) :
    (s.vacate n).allBlocks.count b = s.allBlocks.count b := by
  obtain ⟨hfree, hclearQ, -⟩ := s.vacate_released n
  have hrelease := s.release_allBlocks s.recs[n].blocks b
  have hset := (s.release s.recs[n].blocks).setRec_allBlocks n
    { gen := s.recs[n].gen + 1, life := .vacant, length := 0, blocks := [] } b
  have hsame : (s.vacate n).allBlocks = ((s.release s.recs[n].blocks).setRec n
      { gen := s.recs[n].gen + 1, life := .vacant, length := 0, blocks := [] }).allBlocks :=
    State.allBlocks_congr hfree hclearQ (by simp) (by rw [State.vacate_recs]; simp)
  rw [State.release_recs, List.count_nil] at hset
  rw [hsame]
  omega

/-- Blocks taken onto a record's list. -/
theorem State.grow_allBlocks (s : State) (n : ChainNo) (p : Port) (bs : List Nat) (b : Nat) :
    (s.grow n p bs).allBlocks.count b = s.allBlocks.count b + bs.count b := by
  have hset := s.setRec_allBlocks n { s.recs[n] with blocks := s.recs[n].blocks ++ bs } b
  have hsame : (s.grow n p bs).allBlocks = (s.setRec n { s.recs[n] with blocks := s.recs[n].blocks ++ bs }).allBlocks :=
    State.allBlocks_congr rfl rfl rfl rfl
  rw [List.count_append] at hset
  rw [hsame]
  omega

theorem State.setLength_allBlocks (s : State) (n : ChainNo) (len b : Nat) :
    (s.setRec n { s.recs[n] with length := len }).allBlocks.count b = s.allBlocks.count b :=
  Nat.add_right_cancel (s.setRec_allBlocks n _ b)

/-! ### The invariant -/

/-- R3 for one record: the blocks its length needs, 64 of them at most, and none while it is VACANT. -/
def ChainRec.Sized (r : ChainRec) : Prop :=
  r.blocks.length = blocksFor r.length ∧ r.length ≤ 8192 ∧ (r.life = .vacant → r.length = 0)

/-- R20 and R3. -/
def PlacesInv (s : State) : Prop :=
  (∀ b, s.allBlocks.count b = (List.range 512).count b) ∧ ∀ n : ChainNo, s.recs[n].Sized

theorem blocksInv_iff (s : State) : BlocksInv s ↔ PiusAgree s ∧ PlacesInv s := by
  unfold BlocksInv PlacesInv
  rw [piusAgree_iff, List.perm_iff_count]
  exact ⟨fun ⟨h1, h2, h3⟩ => ⟨h3, h1, h2⟩, fun ⟨h3, h1, h2⟩ => ⟨h1, h2, h3⟩⟩

theorem PlacesInv.congr {s t : State} (h : PlacesInv s) (hb : ∀ b, t.allBlocks.count b = s.allBlocks.count b)
    (hr : t.recs = s.recs) : PlacesInv t := by
  refine ⟨fun b => (hb b).trans (h.1 b), ?_⟩
  rw [hr]
  exact h.2

theorem PlacesInv.frame {s t : State} (h : PlacesInv s) (hs : t.stock = s.stock) : PlacesInv t := by
  simp only [State.stock, Prod.mk.injEq] at hs
  obtain ⟨-, hf, hq, he, hr, -, -⟩ := hs
  exact h.congr (fun b => by rw [State.allBlocks_congr hf hq he hr]) hr

/-- One record is replaced; the blocks it gives up and those it gets are accounted for elsewhere. -/
theorem PlacesInv.of_record {s t : State} {n : ChainNo} {r : ChainRec} (h : PlacesInv s)
    (hb : ∀ b, t.allBlocks.count b = s.allBlocks.count b) (hr : t.recs = s.recs.set n r) (hsized : r.Sized) :
    PlacesInv t := by
  refine ⟨fun b => (hb b).trans (h.1 b), fun m => ?_⟩
  rw [hr, get_set]
  split
  · exact hsized
  · exact h.2 m

/-- A record keeps its blocks. -/
theorem PlacesInv.setRec {s : State} {n : ChainNo} {r : ChainRec} (h : PlacesInv s)
    (hblocks : r.blocks = s.recs[n].blocks) (hsized : r.Sized) : PlacesInv (s.setRec n r) :=
  h.of_record (fun b => by have := s.setRec_allBlocks n r b; rw [hblocks] at this; omega) rfl hsized

/-- A record in use takes another state. -/
theorem ChainRec.Sized.relabel {r : ChainRec} (h : r.Sized) {l : Life} (hl : l ≠ .vacant) :
    ({ r with life := l } : ChainRec).Sized := by
  obtain ⟨hblocks, hlen, -⟩ := h
  exact ⟨hblocks, hlen, fun e => absurd e hl⟩

theorem ChainRec.Sized.vacant_blocks {r : ChainRec} (h : r.Sized) (hv : r.life = .vacant) : r.blocks = [] := by
  obtain ⟨hblocks, -, hvac⟩ := h
  rw [hvac hv] at hblocks
  exact List.eq_nil_of_length_eq_zero hblocks

theorem ChainRec.sized_vacant (g : Gen) :
    ({ gen := g, life := .vacant, length := 0, blocks := [] } : ChainRec).Sized :=
  ⟨by simp [blocksFor, Config.blockBytes], Nat.zero_le _, fun _ => rfl⟩

theorem PlacesInv.vacate {s : State} (h : PlacesInv s) (n : ChainNo) : PlacesInv (s.vacate n) :=
  h.of_record (s.vacate_allBlocks n) (s.vacate_recs n) (ChainRec.sized_vacant _)

theorem PlacesInv.openAt {s : State} {n : ChainNo} (p : Port) (tag : Word) (h : PlacesInv s)
    (hv : s.recs[n].life = .vacant) : PlacesInv (s.openAt n p tag) := by
  have hsized : ({ gen := s.recs[n].gen, life := .opened p ⟨tag, 0⟩, length := 0, blocks := [] } : ChainRec).Sized :=
    (ChainRec.sized_vacant _).relabel (by simp)
  exact (h.setRec (n := n) ((h.2 n).vacant_blocks hv).symm hsized).congr (fun _ => rfl) rfl

theorem PlacesInv.adopt {s : State} {n : ChainNo} {d : Delivery} {l : Label} {c : Word} (p : Port) (h : PlacesInv s) :
    PlacesInv (s.adopt n p d l c) := by
  have hset := h.setRec (n := n) (r := { s.recs[n] with life := .sealed p ⟨l.tag, l.hops + 1⟩ c }) rfl
    ((h.2 n).relabel (by simp))
  refine hset.congr (fun b => congrArg _ (State.allBlocks_congr ?_ ?_ ?_ ?_)) ?_ <;> simp [State.adopt]

/-- A record in use takes a new length that needs the blocks it has. -/
theorem PlacesInv.setLength {s : State} {n : ChainNo} {len : Nat} (h : PlacesInv s) (hlen : len ≤ 8192)
    (hblocks : s.recs[n].blocks.length = blocksFor len) (hlive : s.recs[n].life ≠ .vacant) :
    PlacesInv (s.setRec n { s.recs[n] with length := len }) :=
  h.setRec rfl ⟨hblocks, hlen, fun e => absurd e hlive⟩

/-- Allocated blocks join a record's list with the length that needs them. -/
theorem PlacesInv.growTo {s t : State} {n : ChainNo} {k len : Nat} {bs : List Nat} (h : PlacesInv s)
    (halloc : s.allocate k = some (bs, t)) (p : Port) (hlen : len ≤ 8192)
    (hblocks : s.recs[n].blocks.length + bs.length = blocksFor len) (hlive : s.recs[n].life ≠ .vacant) :
    PlacesInv ((t.grow n p bs).setRec n { (t.grow n p bs).recs[n] with length := len }) := by
  have hrecs : t.recs = s.recs := by
    obtain ⟨-, -, rfl⟩ := allocate_some halloc
    rfl
  have hgrown : (t.grow n p bs).recs[n] = { s.recs[n] with blocks := s.recs[n].blocks ++ bs } := by
    rw [← hrecs]
    exact State.setRec_get _ _ _
  refine h.of_record (n := n) (r := { s.recs[n] with blocks := s.recs[n].blocks ++ bs, length := len }) (fun b => ?_) ?_
    ⟨?_, hlen, fun e => absurd e hlive⟩
  · rw [State.setLength_allBlocks, State.grow_allBlocks]
    exact allocate_allBlocks halloc b
  · rw [State.setRec_recs, hgrown]
    simp [-Fin.getElem_fin, State.grow, hrecs]
  · simpa [-Fin.getElem_fin] using hblocks

/-! ### Growth: Extend Chain and Append Data -/

theorem PlacesInv.extendChain {s : State} {n : ChainNo} {p : Port} (count : Word) (h : PlacesInv s)
    (ho : s.recs[n].life.owner = some p) : PlacesInv (extendChain p n count s).1 := by
  obtain ⟨hblocks, -, -⟩ := h.2 n
  have hlive := ne_vacant_of_owner ho
  obtain e | ⟨len, -, hlen, ⟨hfor, e⟩ | ⟨bs, t, halloc, hfor, e⟩⟩ := extendChain_cases p n count s <;> rw [e]
  · exact h
  · exact (h.setLength hlen (hblocks.trans hfor.symm) hlive).frame rfl
  · exact (h.growTo halloc p hlen (by omega) hlive).frame rfl

/-- A byte at a place within a block needs no further block. -/
theorem blocksFor_succ {len : Nat} (h : len % 128 ≠ 0) : blocksFor (len + 1) = blocksFor len := by
  unfold blocksFor
  dsimp only [Config.blockBytes]
  omega

/-- A byte that starts a block needs one more. -/
theorem blocksFor_succ_of_full {len : Nat} (h : len % 128 = 0) : blocksFor (len + 1) = blocksFor len + 1 := by
  unfold blocksFor
  dsimp only [Config.blockBytes]
  omega

theorem PlacesInv.appendByte {s : State} {p : Port} {st : Stream} (x : Byte) (h : PlacesInv s)
    (hopen : ∃ l, s.recs[st.ref.num].life = .opened p l) : PlacesInv (s.appendByte p st x) := by
  obtain ⟨hblocks, hmax, -⟩ := h.2 st.ref.num
  obtain ⟨l, hl⟩ := hopen
  have hlive : s.recs[st.ref.num].life ≠ .vacant := by rw [hl]; simp
  obtain ⟨why, e⟩ | ⟨hlen, e⟩ | ⟨hlen, hroom, bs, t, halloc, e⟩ := appendByte_cases p st x s <;> rw [e]
  · exact h.frame rfl
  · exact (h.setLength (by omega) (hblocks.trans (blocksFor_succ hlen).symm) hlive).frame rfl
  · have hbs := allocate_length halloc
    have hsame : (t.grow st.ref.num p bs).recs[st.ref.num].length = s.recs[st.ref.num].length := by
      obtain ⟨-, -, rfl⟩ := allocate_some halloc
      simp [-Fin.getElem_fin, State.grow, get_set]
    have hfor := blocksFor_succ_of_full hlen
    refine (h.growTo halloc p (len := s.recs[st.ref.num].length + 1) ?_ (by omega) hlive).frame ?_
    · rw [hblocks] at hroom
      unfold blocksFor at hroom
      dsimp only [Config.blockBytes] at hroom
      omega
    · rw [← hsame]
      rfl

/-! ### Clearing and device reset -/

theorem State.startClearing_blocks (s : State) (b : Nat) :
    s.clearQ.tail.count b + (s.startClearing.map (·.block)).toList.count b = s.clearQ.count b := by
  unfold State.startClearing
  cases s.clearQ with
  | nil => simp
  | cons b' q => simp [List.count_cons]

/-- The Clear Queue's head goes under the IDLE engine. -/
theorem PlacesInv.clearingStart {s : State} (h : PlacesInv s) : Leaves PlacesInv (execClearingStart s) := by
  unfold execClearingStart
  split
  · next c he hc =>
    refine (leaves_next _ _).mpr (h.congr (fun b => ?_) rfl)
    have hstart := s.startClearing_blocks b
    simp only [hc] at hstart
    simp only [State.count_allBlocks, he, Option.map_none, Option.toList_none, List.count_nil]
    omega
  all_goals simpa using h

/-- After the eighth line the block leaves the engine for the Free List, and the next takes its place. -/
theorem PlacesInv.clearLineWrite {s : State} (h : PlacesInv s) : Leaves PlacesInv (execClearLineWrite s) := by
  unfold execClearLineWrite
  split
  · next c he =>
    split
    · simp
    split
    · refine (leaves_next _ _).mpr (h.congr (fun b => congrArg _ ?_) rfl)
      simp [State.allBlocks, he, State.fillLine]
    · refine (leaves_next _ _).mpr (h.congr (fun b => ?_) (by simp [State.completeClearing, State.fillLine]))
      have hstart := s.startClearing_blocks b
      simp only [State.startClearing] at hstart
      simp only [State.count_allBlocks, State.completeClearing, State.startClearing, he, State.fillLine,
        State.freeRises_free, State.freeRises_recs, List.count_append, Option.map_some, Option.toList_some]
      omega
  · simpa using h

theorem placesInv_of_reset {s : State} (hf : s.free = List.range 512) (hq : s.clearQ = []) (he : s.clearEng = none)
    (hr : s.recs = Vector.replicate 64 ChainRec.reset) : PlacesInv s := by
  refine ⟨fun b => ?_, fun n => ?_⟩
  · rw [State.allBlocks, hf, hq, he, hr]
    simp [Vector.toList_replicate, ChainRec.reset]
  · have : s.recs[n] = ChainRec.reset := by rw [hr]; simp
    rw [this]
    exact ChainRec.sized_vacant 0

theorem placesInv_deviceReset (s : State) (resetn : Bool) : PlacesInv (s.deviceReset resetn) :=
  placesInv_of_reset (by rw [State.deviceReset, State.reset]) rfl rfl rfl

/-- What the blocks and the lengths survive; the agreement of the PIUs tells that an append's record is in use. -/
theorem placesInv_stock : StockInv True PlacesInv where
  frame hs h := h.frame hs
  relabel h _ hl _ := h.setRec rfl ((h.2 _).relabel hl)
  openAt p tag h hv := h.openAt p tag hv
  adopt p h _ := h.adopt p
  vacate n h := h.vacate n
  extend count h ho := h.extendChain count ho
  append x h hopen := h.appendByte x (hopen trivial)
  write _ _ h := h.congr (fun _ => rfl) rfl
  clearingStart h := h.clearingStart
  clearLineWrite h := h.clearLineWrite
  initPass h := h.congr (fun _ => rfl) rfl
  deviceReset resetn _ := placesInv_deviceReset _ resetn

end Sys2Proof.Machine

namespace Sys2Proof.Proofs
open Machine

/-- Settles O53: the places and the lengths beside the PIUs' agreement with the records, which keeps an append to a
record in use. -/
theorem blocksConserved : Obligations.BlocksConserved := by
  intro s t h hs
  rw [blocksInv_iff] at hs ⊢
  obtain ⟨hpius, hplaces⟩ := hs
  obtain ⟨hpius', hplaces'⟩ := step_kept placesInv_stock ⟨fun _ => hpius, hplaces⟩ t h
  exact ⟨hpius' trivial, hplaces'⟩

end Sys2Proof.Proofs
end

section
/-! PROOFS. The watermark and the Store Arbiter's ring (R25, R27). -/

namespace Sys2Proof.Machine

/-! ### The watermark (R25) -/

theorem State.freeFalls_trips {s : State} {l : List Nat} (hw : s.watermark = .armed)
    (hl : l.length < s.committed.lowMark) : s.freeFalls l =
      { s with free := l, watermark := .tripped, edges := (s.raiseAll .lowFree 0).edges } := by
  have : s.trips l.length = true := by simp [State.trips, hw, hl]
  unfold State.freeFalls
  rw [this]
  rfl

theorem State.freeFalls_quiet {s : State} {l : List Nat} (h : s.watermark = .tripped ∨ s.committed.lowMark ≤ l.length) :
    s.freeFalls l = { s with free := l } := by
  have : s.trips l.length = false := by
    rcases h with hw | hl
    · simp [State.trips, hw]
    · simp [State.trips, hl]
  unfold State.freeFalls
  rw [this]
  rfl

theorem State.freeRises_rearms {s : State} {l : List Nat} (hw : s.watermark = .tripped)
    (hl : s.committed.highMark ≤ l.length) : s.freeRises l = { s with free := l, watermark := .armed } := by
  have : s.rearms l.length = true := by simp [State.rearms, hw, hl]
  unfold State.freeRises
  rw [this]
  rfl

theorem State.freeRises_quiet {s : State} {l : List Nat} (h : s.watermark = .armed ∨ l.length < s.committed.highMark) :
    s.freeRises l = { s with free := l } := by
  have : s.rearms l.length = false := by
    rcases h with hw | hl
    · simp [State.rearms, hw]
    · simp [State.rearms, hl]
  unfold State.freeRises
  rw [this]
  rfl

/-- LOW_FREE stands at bit 04h and is raised at every enabled port. -/
theorem State.raiseAll_lowFree (s : State) : (s.raiseAll .lowFree 0).edges =
    Vector.ofFn (fun q : Port => if s.isEnabled q then s.edges[q] ||| 0x04 else s.edges[q]) := by
  have hbit : Reason.bit .lowFree = 0x04 := by decide
  simp [-Fin.getElem_fin, State.raiseAll, hbit]

/-! ### The ring (R27) -/

/-- In a list of rising measure the first element with a property is the one of least measure, if every element with
the property is in the list. -/
theorem find?_eq_some_iff_least {α : Type} {l : List α} {f : α → Nat} {w : α → Bool}
    (hl : l.Pairwise (f · < f ·)) (hmem : ∀ x, w x = true → x ∈ l) (r : α) :
    l.find? w = some r ↔ w r = true ∧ ∀ x, w x = true → f r ≤ f x := by
  have hleast {r : α} (h : l.find? w = some r) (x : α) (hx : w x = true) : f r ≤ f x := by
    obtain ⟨-, as, bs, rfl, has⟩ := List.find?_eq_some_iff_append.mp h
    obtain ⟨-, htail, -⟩ := List.pairwise_append.mp hl
    obtain ⟨hafter, -⟩ := List.pairwise_cons.mp htail
    rcases List.mem_append.mp (hmem x hx) with ha | hb
    · simpa [hx] using has x ha
    · rcases List.mem_cons.mp hb with rfl | hb
      · exact le_rfl
      · exact (hafter x hb).le
  refine ⟨fun h => ⟨List.find?_some h, hleast h⟩, fun ⟨hr, hmin⟩ => ?_⟩
  obtain ⟨as, bs, rfl⟩ := List.append_of_mem (hmem r hr)
  obtain ⟨-, -, hbefore⟩ := List.pairwise_append.mp hl
  refine List.find?_eq_some_iff_append.mpr ⟨hr, as, bs, rfl, fun a ha => ?_⟩
  by_contra hw
  exact absurd (hbefore a ha r List.mem_cons_self) (Nat.not_lt.mpr (hmin a (by simpa using hw)))

theorem mem_ringFrom : ∀ a ∈ ring, ∀ r ∈ ring, r ∈ ringFrom a := by
  decide

/-- The ring from a position lists the requesters by rising distance. -/
theorem ringFrom_pairwise (a : Requester) : (ringFrom a).Pairwise (ringDistance a · < ringDistance a ·) := by
  rw [← List.pairwise_map, ringFrom_distance a (mem_ring a)]
  decide

end Sys2Proof.Machine

namespace Sys2Proof.Proofs
open Machine

/-- Settles O22: a fall and a rise, each tripping or re-arming the watermark or not. -/
theorem watermarkCompared : Obligations.WatermarkCompared := by
  intro s l
  refine ⟨fun hw hl => ?_, State.freeFalls_quiet, State.freeRises_rearms, State.freeRises_quiet⟩
  rw [State.freeFalls_trips hw hl, State.raiseAll_lowFree]

/-- Settles O29: the ring from the position lists the requesters by rising distance, so the first that waits is the
nearest. -/
theorem grantRing : Obligations.GrantRing := fun s r =>
  find?_eq_some_iff_least (ringFrom_pairwise s.arbPos)
    (fun x _ => mem_ringFrom s.arbPos (mem_ring s.arbPos) x (mem_ring x)) r

end Sys2Proof.Proofs
end

section
/-! PROOFS. The accesses to the store array: a staging line's write and fill, the close of a stream, the Clear Engine
(R23, R27 to R31). -/

namespace Sys2Proof.Machine

/-! ### The lines of the array -/

/-- A byte of a line just written: the byte placed there, or the one the array held. -/
theorem Memory.read_writeLine {m : Memory} (h : Memory.wf m = true) (base : Nat) (cells : Vector (Option Byte) 16)
    (i : Fin 16) :
    Memory.read (Memory.writeCells m base cells.toList) (base + i.val) =
      (cells[i]).getD (Memory.read m (base + i.val)) := by
  rw [Memory.read_writeCells m base _ _ h, if_pos (Nat.le_add_right _ _)]
  simp

/-- A byte outside the line keeps its value. -/
theorem Memory.read_writeCells_outside {m : Memory} (h : Memory.wf m = true) {base a : Nat} {cells : List (Option Byte)}
    (ha : a < base ∨ base + cells.length ≤ a) :
    Memory.read (Memory.writeCells m base cells) a = Memory.read m a := by
  rw [Memory.read_writeCells m base _ _ h]
  rcases ha with ha | ha
  · rw [if_neg (Nat.not_le.mpr ha)]
  · rw [if_pos (by omega), List.getElem?_eq_none (by omega)]
    rfl

/-- A block's line as the Clear Engine writes it. -/
theorem State.fillLine_store (s : State) (c : Clearing) : (s.fillLine c).store =
    Memory.writeCells s.store (128 * c.block + 16 * c.line) (List.replicate 16 (some c.fill)) := rfl

/-- A line filled with one byte. -/
theorem Memory.read_fill {m : Memory} (h : Memory.wf m = true) (base a : Nat) (x : Byte) :
    Memory.read (Memory.writeCells m base (List.replicate 16 (some x))) a =
      if base ≤ a ∧ a < base + 16 then x else Memory.read m a := by
  split
  · next ha =>
    obtain ⟨hle, hlt⟩ := ha
    rw [Memory.read_writeCells m base _ _ h, if_pos hle, List.getElem?_replicate, if_pos (by omega)]
    rfl
  · next ha => exact Memory.read_writeCells_outside h (by simp only [List.length_replicate]; omega)

/-! ### The staging line -/

/-- The outcome earned, as the statements spell it. -/
theorem Stream.ending_eq (st : Stream) (len : Nat) : st.ending len = outcomeOf st len := by
  unfold Stream.ending outcomeOf
  cases st.kind <;> cases st.stopped <;> rfl

theorem Stream.settle_eq (len : Nat) (st : Stream) :
    st.settle len = if st.closing = true then { st with earned := some (outcomeOf st len) } else st := by
  unfold Stream.settle
  rw [Stream.ending_eq]

theorem execStagingLineWrite_granted {s : State} {p : Port} (hreq : s.pius[p].staging.req = .write)
    (hg : s.nextGrant = some (.piu p)) :
    execStagingLineWrite p s = .next
      { s with
        store := Memory.writeCells s.store s.pius[p].staging.base s.pius[p].staging.cells.toList
        arbPos := .piu p
        pius := s.pius.set p
          { s.pius[p] with
            staging := Staging.reset
            stream := s.pius[p].stream.map (fun st =>
              if st.closing = true then
                { st with earned := some (outcomeOf st s.recs[st.ref.num].length) }
              else st) } } := by
  unfold execStagingLineWrite
  rw [if_neg (by simp [-Fin.getElem_fin, hreq]), if_neg (by simp [hg])]
  simp only [Stream.settle_eq]
  rfl

theorem execStagingLineFill_granted {s : State} {p : Port} (hreq : s.pius[p].staging.req = .fill)
    (hg : s.nextGrant = some (.piu p)) :
    execStagingLineFill p s = .next
      { s with
        arbPos := .piu p
        pius := s.pius.set p
          { s.pius[p] with
            staging :=
              { base := s.pius[p].staging.base
                cells := Memory.readLine s.store s.pius[p].staging.base
                req := .none } } } := by
  unfold execStagingLineFill
  rw [if_neg (by simp [-Fin.getElem_fin, hreq]), if_neg (by simp [hg])]
  rfl

/-! ### The close of a stream -/

theorem Staging.holds_iff (g : Staging) : g.holds = true ↔ ∃ i : Fin 16, g.cells[i] ≠ none := by
  unfold Staging.holds
  rw [List.any_eq_true]
  constructor
  · rintro ⟨c, hc, hsome⟩
    obtain ⟨i, hi, rfl⟩ := Vector.getElem_of_mem (Vector.mem_toList_iff.mp hc)
    exact ⟨⟨i, hi⟩, Option.isSome_iff_ne_none.mp hsome⟩
  · rintro ⟨i, hi⟩
    exact ⟨g.cells[i], by simp, Option.isSome_iff_ne_none.mpr hi⟩

/-- Select rises in a stream's data phase. -/
theorem execStreamClose_rise {s : State} {p : Port} {ops : List Byte} {st : Stream}
    (h : Streams s p st.kind.cmd ops st) : execStreamClose p .rise s = .next (s.closeStream p st) := by
  obtain ⟨⟨hsel, hlink⟩, hst⟩ := h
  simp [-Fin.getElem_fin, execStreamClose, streamRise, hsel, hlink, hst, StreamKind.cmd_cls]

theorem execStreamClose_record {s : State} {p : Port} {st : Stream} (hst : s.pius[p].stream = some st)
    (hc : st.closing = true) (hreq : s.pius[p].staging.req = .none) :
    execStreamClose p .record s = .next (s.finishStream p st) := by
  simp [-Fin.getElem_fin, execStreamClose, streamRecord, hst, hc, hreq]

/-- The recording ends the stream and empties its line. -/
theorem State.finishStream_eq (s : State) (p : Port) (st : Stream) : s.finishStream p st =
    { s with
      pius := s.pius.set p
        { s.pius[p] with
          result := { seq := s.pius[p].result.seq + 1, command := st.kind.cmd.code,
                      ending := st.earned.getD (st.ending s.recs[st.ref.num].length) }
          stream := none
          staging := Staging.reset } } := by
  simp [State.finishStream, State.record, State.setPiu]

/-! ### The Clear Engine -/

theorem execClearLineWrite_line {s : State} {c : Clearing} (he : s.clearEng = some c)
    (hg : s.nextGrant = some .clearEngine) (hl : c.line < 7) :
    execClearLineWrite s = .next
      { s with
        store := (s.fillLine c).store
        arbPos := .clearEngine
        clearEng := some { c with line := c.line + 1 } } := by
  simp [execClearLineWrite, he, hg, hl, State.fillLine]

theorem execClearLineWrite_last {s : State} {c : Clearing} (he : s.clearEng = some c)
    (hg : s.nextGrant = some .clearEngine) (hl : 7 ≤ c.line) :
    execClearLineWrite s = .next
      { s.freeRises (s.free ++ [c.block]) with
        store := (s.fillLine c).store
        arbPos := .clearEngine
        clearQ := s.clearQ.tail
        clearEng := s.clearQ.head?.map (fun b => { block := b, fill := s.committed.fillByte, line := 0 }) } := by
  have hrises : (s.fillLine c).freeRises (s.free ++ [c.block]) =
      { s.freeRises (s.free ++ [c.block]) with store := (s.fillLine c).store, arbPos := .clearEngine } := by
    have hrearms : (s.fillLine c).rearms (s.free ++ [c.block]).length = s.rearms (s.free ++ [c.block]).length := rfl
    unfold State.freeRises
    rw [hrearms]
    rfl
  have hfree : (s.fillLine c).free = s.free := by simp only [State.fillLine]
  simp only [execClearLineWrite, he, hg, Nat.not_lt.mpr hl, State.completeClearing, hfree, hrises, State.startClearing]
  simp [State.fillLine]

end Sys2Proof.Machine

namespace Sys2Proof.Proofs
open Machine

/-- Settles O27: the write's bytes are read back place by place, and the fill reads them as they stand. -/
theorem stagingLineAccess : Obligations.StagingLineAccess := by
  refine ⟨fun s p h => if_pos h, fun s p h => if_pos h, ?_⟩
  rintro s p g rfl hwf hg
  refine ⟨fun hreq => ⟨_, execStagingLineWrite_granted hreq hg, fun i b hb => ?_, fun i hb => ?_, fun a ha => ?_⟩,
    fun hreq => execStagingLineFill_granted hreq hg⟩
  · rw [Memory.read_writeLine hwf, hb]
    rfl
  · rw [Memory.read_writeLine hwf, hb]
    rfl
  · exact Memory.read_writeCells_outside hwf (by simpa using ha)

/-- Settles O28: select rise asks for the last grant or ends the stream, and the recording ends it. -/
theorem streamCloseRecords : Obligations.StreamCloseRecords := by
  refine ⟨fun s p h => ?_, ?_⟩
  · cases hst : s.pius[p].stream with
    | none => simp [-Fin.getElem_fin, exec, execStreamClose, streamRecord, hst]
    | some st => simp [-Fin.getElem_fin, exec, execStreamClose, streamRecord, hst, h st hst]
  rintro s p st len e hst rfl he
  obtain rfl : e = st.earned.getD (st.ending s.recs[st.ref.num].length) := by
    rw [he, Stream.ending_eq]
    cases st.earned <;> rfl
  refine ⟨fun ops hb => ⟨fun hk hcells => ?_, fun hk => ?_⟩, fun hc hreq => ?_⟩
  · refine (execStreamClose_rise ⟨hb, hst⟩).trans (congrArg _ ?_)
    rw [State.closeStream, if_pos (by simp [-Fin.getElem_fin, hk, (Staging.holds_iff _).mpr hcells])]
    simp [State.setPiu, State.deselect, Piu.closed]
  · refine (execStreamClose_rise ⟨hb, hst⟩).trans (congrArg _ ?_)
    have hnone : ¬(decide (st.kind ≠ .read) && s.pius[p].staging.holds) = true := by
      rw [Bool.and_eq_true, Staging.holds_iff]
      rintro ⟨hw, i, hi⟩
      exact hk.elim (fun e => absurd e (by simpa using hw)) fun hcells => hi (hcells i)
    rw [State.closeStream, if_neg hnone, State.finishStream_eq]
    simp [Piu.answered, State.deselect, State.setPiu, Staging.reset]
  · exact (execStreamClose_record hst hc hreq).trans (congrArg _ (State.finishStream_eq s p st))

/-- Settles O51: the block under the engine, line by line, and the next one after the eighth. -/
theorem clearingProceeds : Obligations.ClearingProceeds := by
  refine ⟨fun s h => ?_, fun s h => ?_, fun s b rest he hq => ?_, fun s c he hg hwf => ?_⟩
  · unfold exec execClearingStart
    cases he : s.clearEng with
    | some c => rfl
    | none => simp [State.startClearing, h.resolve_left (by simp [he])]
  · simp [exec, execClearLineWrite, h]
  · simp [exec, execClearingStart, State.startClearing, he, hq]
  · refine ⟨(s.fillLine c).store, execClearLineWrite_line he hg, execClearLineWrite_last he hg, fun a => ?_⟩
    rw [State.fillLine_store, Memory.read_fill hwf]

end Sys2Proof.Proofs
end

section
/-! PROOFS. Device reset (R32): the values it leaves, and that they meet every invariant. -/

namespace Sys2Proof.Machine

/-! ### What a reset register file holds -/

/-- Every port and every record reads the value that a reset register file holds throughout. -/
theorem getElem_replicate_fin {α : Type} {n : Nat} (x : α) (i : Fin n) : (Vector.replicate n x)[i] = x := by
  simp

/-- The reset machine is what a device reset leaves of it. -/
theorem State.deviceReset_reset : State.reset.deviceReset true = State.reset := by
  simp only [State.deviceReset, State.reset, Vector.map_replicate]

theorem State.deviceReset_piu (s : State) (resetn : Bool) (p : Port) :
    (s.deviceReset resetn).pius[p] = { Piu.reset with sel := s.pius[p].sel } := by
  simp [State.deviceReset]

theorem atReset_deviceReset (s : State) (resetn : Bool) : AtReset (s.deviceReset resetn) := by
  have hrecs : (s.deviceReset resetn).recs = Vector.replicate 64 ChainRec.reset := rfl
  have hleases : (s.deviceReset resetn).leases = Vector.replicate 64 .none := rfl
  refine ⟨rfl, by rw [State.deviceReset, State.reset], rfl, rfl, rfl, rfl, fun n => ?_, rfl, rfl, rfl, rfl, rfl, rfl,
    fun p => ?_⟩
  · rw [hrecs, hleases]
    exact ⟨getElem_replicate_fin _ _, getElem_replicate_fin _ _⟩
  · rw [State.deviceReset_piu]
    exact ⟨getElem_replicate_fin _ p, getElem_replicate_fin _ p, getElem_replicate_fin _ p, getElem_replicate_fin _ p,
      getElem_replicate_fin _ p, getElem_replicate_fin _ p, rfl, rfl, rfl, rfl, rfl, rfl, rfl⟩

/-! ### The invariants after reset -/

theorem State.reset_rec (n : ChainNo) : State.reset.recs[n] = ChainRec.reset := getElem_replicate_fin _ n

theorem blocksInv_reset : BlocksInv State.reset := by
  rw [← State.deviceReset_reset, blocksInv_iff]
  exact ⟨piusAgree_deviceReset _ _, placesInv_deviceReset _ _⟩

theorem deliveriesInv_reset : DeliveriesInv State.reset := by
  rw [← State.deviceReset_reset]
  exact deliveriesInv_deviceReset _ _

/-- No record is charged to a port. -/
theorem chargesInv_reset : ChargesInv State.reset := by
  obtain ⟨-, -, hstreams, hlinks⟩ := blocksInv_reset
  refine ⟨fun p => ?_, hstreams, hlinks⟩
  have hcharged : State.reset.chargedTo p = [] := by
    simp [State.chargedTo, State.reset, ChainRec.reset, Life.charged]
  rw [hcharged]
  exact ⟨getElem_replicate_fin _ p, getElem_replicate_fin _ p⟩

theorem sealInv_reset : SealInv State.reset := by
  refine ⟨fun n => ?_, fun _ => rfl⟩
  rw [State.reset_rec]
  rfl

theorem settingsInv_reset : SettingsInv State.reset := by
  have hranges : Settings.reset.inRange := by
    unfold Settings.inRange
    decide
  have hmarks : Settings.reset.lowMark < Settings.reset.highMark := by decide
  have hmask : Settings.reset.enableMask ≠ 0 := by decide
  have hdivider : 0 < Settings.reset.tickRatio := by decide
  exact ⟨hranges, hmarks, hmask, nofun, ⟨fun _ => rfl, fun _ => rfl⟩, nofun, hdivider⟩

/-- No counter runs. -/
theorem leasesInv_reset : LeasesInv State.reset := by
  have hlease (n : ChainNo) : State.reset.leases[n] = .none := getElem_replicate_fin _ n
  refine ⟨settingsInv_reset, fun n c g h => ?_, fun n g h => ?_⟩
  all_goals rw [hlease] at h; cases h

theorem queuesInv_reset : QueuesInv State.reset := by
  have hinq (p : Port) : State.reset.inqs[p] = InQueue.reset := getElem_replicate_fin _ p
  have hnotq (p : Port) : State.reset.notqs[p] = [] := getElem_replicate_fin _ p
  have hdepth : ∀ p : Port, 0 < Settings.reset.depth p := by decide
  refine ⟨settingsInv_reset, fun p => ?_⟩
  rw [hinq, hnotq]
  exact ⟨⟨Nat.zero_le _, hdepth p, hdepth p, rfl⟩, Nat.zero_le _⟩

/-- Every port is enabled. -/
theorem disabledInv_reset : DisabledInv State.reset := by
  have henabled : ∀ p : Port, inSet Settings.reset.enableMask p = true := by decide
  intro p h
  exact absurd (henabled p) (by rw [Bool.not_eq_true]; exact h)

end Sys2Proof.Machine

namespace Sys2Proof.Proofs
open Machine

/-- Settles O4: both resets are the device reset; the pins, the store's bytes and the queue stay beside it. -/
theorem deviceEvents : Obligations.DeviceEvents := by
  have hreset : AtReset State.reset := State.deviceReset_reset ▸ atReset_deviceReset State.reset true
  have hsel (s : State) (resetn : Bool) (p : Port) : (s.deviceReset resetn).pius[p].sel = s.pius[p].sel := by
    rw [State.deviceReset_piu]
  refine ⟨hreset, rfl, rfl, rfl, rfl, fun p => ?_, fun s => ⟨?_, ?_, rfl, fun hn hr => ?_, fun h => ?_⟩, fun _ => rfl⟩
  · exact congrArg Piu.sel (getElem_replicate_fin Piu.reset p)
  · exact ⟨_, rfl, atReset_deviceReset s _, rfl, rfl, rfl, hsel s _⟩
  · exact ⟨_, rfl, atReset_deviceReset s _, rfl, rfl, rfl, hsel s _⟩
  · simp [exec, execInitializationComplete, hn, hr]
  · have : (s.ready || !s.resetn) = true := by rcases h with h | h <;> simp [h]
    exact if_pos this

/-- Settles O60: each invariant at the reset values. -/
theorem resetMeetsInvariants : Obligations.ResetMeetsInvariants :=
  ⟨rfl, blocksInv_reset, chargesInv_reset, deliveriesInv_reset, sealInv_reset, leasesInv_reset, queuesInv_reset,
    disabledInv_reset⟩

end Sys2Proof.Proofs
end

section
/-! PROOFS. Extend Chain (R43, R44): the answer of each branch, and the state that an accepted one leaves. -/

namespace Sys2Proof.Machine

/-! ### The owner's part in the chain checks (R12) -/

/-- A command that R12 accepts from an owner in some state names the owner's role. -/
theorem holdsRole_of_owner {c : Cmd} {l : Life} {p : Port} (hc : ownerStates c ≠ []) (h : l.owner = some p) :
    holdsRole c l p = true := by
  have hrole : l.hasRole p .owner = true := by simp [Life.hasRole, h]
  revert hc
  cases c <;> simp [ownerStates, holdsRole, hrole]

/-- A command that R12 accepts in OPEN, from the owner of an OPEN record. -/
theorem chainCheck_opened {s : State} {c : Cmd} {p : Port} {nb gb : Byte} {rest : List Byte} {n : ChainNo} {l : Label}
    (hc : c ∈ chainCommands) (hopen : .opened ∈ ownerStates c) (h : Names s nb gb n)
    (hl : s.recs[n].life = .opened p l) : s.chainCheck c p (nb :: gb :: rest) = .ok n := by
  have ho : s.recs[n].life.owner = some p := by rw [hl]; rfl
  exact chainCheck_owner hc h (holdsRole_of_owner (List.ne_nil_of_mem hopen) ho) ho (by rw [hl]; exact hopen)

theorem execExtendChain_rise {s : State} {p : Port} {nb gb hi lo : Byte} {n : ChainNo} {l : Label}
    (h : Waits s p .extendChain [nb, gb, hi, lo]) (hn : Names s nb gb n) (hl : s.recs[n].life = .opened p l) :
    exec (.extendChain p .rise) s =
      .next ((extendChain p n (hi ++ lo) (s.deselect p)).1.record p 0x23
        (extendChain p n (hi ++ lo) (s.deselect p)).2) :=
  chainBeat_ok h (by decide) (chainCheck_opened (by decide) (by decide) hn hl) _

/-! ### Allocation (R21) -/

theorem allocate_of_le {s : State} {k : Nat} (h : k ≤ s.free.length) :
    s.allocate k = some (s.free.take k, s.freeFalls (s.free.drop k)) :=
  if_pos h

theorem allocate_of_lt {s : State} {k : Nat} (h : s.free.length < k) : s.allocate k = none :=
  if_neg (Nat.not_le.mpr h)

/-! ### The branches of Extend Chain (R43) -/

section Branches
variable {s : State} {p : Port} {n : ChainNo} {count : Word} {len k : Nat}

theorem extendChain_range (h : count.toNat = 0 ∨ 8192 < count.toNat) :
    extendChain p n count s = (s, ⟨.range, 0, 0⟩) :=
  if_pos (by simpa [Nat.lt_one_iff] using h)

/-- The test of the count's range, passed. -/
theorem extendCount_inRange (hpos : 1 ≤ count.toNat) (hle : count.toNat ≤ 8192) :
    ¬(decide (count.toNat < 1) || decide (Config.chainBytes < count.toNat)) = true := by
  simpa [Nat.lt_one_iff, Config.chainBytes] using ⟨Nat.one_le_iff_ne_zero.mp hpos, hle⟩

theorem extendChain_tooLong (hpos : 1 ≤ count.toNat) (hle : count.toNat ≤ 8192)
    (hlen : 8192 < s.recs[n].length + count.toNat) :
    extendChain p n count s = (s, ⟨.tooLong, w16 s.recs[n].length, count⟩) := by
  unfold extendChain
  dsimp only
  rw [if_neg (extendCount_inRange hpos hle), if_pos hlen]

variable (hpos : 1 ≤ count.toNat) (hlen : len = s.recs[n].length + count.toNat) (hle : len ≤ 8192)
  (hk : k = blocksFor len - blocksFor s.recs[n].length)
include hpos hlen hle hk

theorem extendChain_sameBlocks (h0 : k = 0) :
    extendChain p n count s = (s.lengthen n len, ⟨.ok, w16 len, 0⟩) := by
  subst hk hlen
  unfold extendChain
  dsimp only
  rw [if_neg (extendCount_inRange hpos (by omega)), if_neg (Nat.not_lt.mpr hle), if_pos h0]

theorem extendChain_quota (h0 : 0 < k) (hq : s.committed.blockQuota p < s.chBlocks[p] + k) :
    extendChain p n count s = (s, ⟨.quotaBlocks, w16 s.chBlocks[p], w16 (s.committed.blockQuota p)⟩) := by
  subst hk hlen
  unfold extendChain
  dsimp only
  rw [if_neg (extendCount_inRange hpos (by omega)), if_neg (Nat.not_lt.mpr hle), if_neg h0.ne', if_pos hq]

/-- Past the quota the blocks decide. -/
theorem extendChain_allocates (h0 : 0 < k) (hq : s.chBlocks[p] + k ≤ s.committed.blockQuota p) :
    extendChain p n count s =
      (s.allocate k).elim (s, ⟨.noBlock, w16 s.free.length, w16 k⟩)
        (fun a => ((a.2.grow n p a.1).lengthen n len, ⟨.ok, w16 len, w16 k⟩)) := by
  subst hk hlen
  unfold extendChain
  dsimp only
  rw [if_neg (extendCount_inRange hpos (by omega)), if_neg (Nat.not_lt.mpr hle), if_neg h0.ne',
    if_neg (Nat.not_lt.mpr hq)]
  cases s.allocate (blocksFor (s.recs[n].length + count.toNat) - blocksFor s.recs[n].length) <;> rfl

theorem extendChain_noBlock (h0 : 0 < k) (hq : s.chBlocks[p] + k ≤ s.committed.blockQuota p)
    (hfree : s.free.length < k) : extendChain p n count s = (s, ⟨.noBlock, w16 s.free.length, w16 k⟩) := by
  rw [extendChain_allocates hpos hlen hle hk h0 hq, allocate_of_lt hfree]
  rfl

theorem extendChain_takesBlocks (h0 : 0 < k) (hq : s.chBlocks[p] + k ≤ s.committed.blockQuota p)
    (hfree : k ≤ s.free.length) :
    extendChain p n count s =
      (((s.freeFalls (s.free.drop k)).grow n p (s.free.take k)).lengthen n len, ⟨.ok, w16 len, w16 k⟩) := by
  rw [extendChain_allocates hpos hlen hle hk h0 hq, allocate_of_le hfree]
  rfl

end Branches

/-! ### The chain lengthened (R44) -/

/-- The new length, the lease and the outcome of a chain whose owner has extended it. -/
theorem State.lengthen_record {s : State} {p : Port} {n : ChainNo} {l : Label} (len : Nat) (e : Ending)
    (hl : s.recs[n].life = .opened p l) :
    ((s.deselect p).lengthen n len).record p 0x23 e =
      { s with
        recs := s.recs.set n { s.recs[n] with length := len }
        leases := s.leases.set n (loaded (s.committed.ownerLease p) s.recs[n].gen)
        pius := s.pius.set p (s.pius[p].answered 0x23 e) } := by
  simp [-Fin.getElem_fin, get_set, State.lengthen, State.record, State.setPiu, State.loadLease, State.setLease,
    State.setRec, State.deselect, Piu.answered, leaseLength, Lease.ofLength, loaded, hl]

/-- The chain grown by blocks, and charged with them, before its length is set. -/
theorem State.grow_lengthen_record {s : State} {p : Port} {n : ChainNo} {l : Label} {bs : List Nat} {k : Nat}
    (len : Nat) (e : Ending) (hl : s.recs[n].life = .opened p l) (hk : bs.length = k) :
    (((s.deselect p).grow n p bs).lengthen n len).record p 0x23 e =
      { s with
        recs := s.recs.set n { s.recs[n] with length := len, blocks := s.recs[n].blocks ++ bs }
        chBlocks := s.chBlocks.set p (s.chBlocks[p] + k)
        leases := s.leases.set n (loaded (s.committed.ownerLease p) s.recs[n].gen)
        pius := s.pius.set p (s.pius[p].answered 0x23 e) } := by
  subst hk
  have hrec : (s.grow n p bs).recs[n] = { s.recs[n] with blocks := s.recs[n].blocks ++ bs } := by
    simp [-Fin.getElem_fin, State.grow, get_set]
  refine (State.lengthen_record (s := s.grow n p bs) len e (by rw [hrec]; exact hl)).trans ?_
  rw [hrec]
  simp [-Fin.getElem_fin, State.grow, State.setRec, State.charge, set_get]

end Sys2Proof.Machine

namespace Sys2Proof.Proofs
open Machine

/-- Settles O20: the growth within the last block, and the growth by the blocks at the Free List's head. -/
theorem extendChainGrows : Obligations.ExtendChainGrows := by
  rintro s p nb gb hi lo n l len k h hn hl hpos - hlen hle hk
  rw [execExtendChain_rise h hn hl]
  refine ⟨fun h0 => ?_, fun h0 hq hfree => ?_⟩
  · rw [extendChain_sameBlocks (s := s.deselect p) hpos hlen hle hk h0, State.lengthen_record len _ hl]
  · rw [extendChain_takesBlocks (s := s.deselect p) hpos hlen hle hk h0 hq hfree]
    exact congrArg _ (State.grow_lengthen_record (s := s.freeFalls (s.free.drop k)) len _ hl
      (List.length_take_of_le hfree))

/-- Settles O21: the four checks in their order, each leaving the state as it was. -/
theorem extendChainRefused : Obligations.ExtendChainRefused := by
  rintro s p nb gb hi lo n l len k h hn hl hlen hk
  rw [execExtendChain_rise h hn hl]
  refine ⟨fun hr => ?_, fun hpos hcount hlong => ?_, fun hpos hle h0 hq => ?_, fun hpos hle h0 hq hfree => ?_⟩
  · rw [extendChain_range hr, State.deselect_record]
  · rw [extendChain_tooLong hpos hcount (by exact hlen ▸ hlong), State.deselect_record]
    rfl
  · rw [extendChain_quota (s := s.deselect p) hpos hlen hle hk h0 hq, State.deselect_record]
    rfl
  · rw [extendChain_noBlock (s := s.deselect p) hpos hlen hle hk h0 hq hfree, State.deselect_record]
    rfl

end Sys2Proof.Proofs
end

section
/-! PROOFS. The acceptance and the refusals of the three streams (R34, R35). -/

namespace Sys2Proof.Machine

/-! ### The last operand byte -/

theorem StreamKind.cmd_mem (kind : StreamKind) : kind.cmd ∈ chainCommands := by
  cases kind <;> decide

/-- The last operand byte of a stream takes it. -/
theorem exec_streamOperand {s : State} {p : Port} {kind : StreamKind} {ops : List Byte} (x : Byte)
    (h : AtOperand s p kind.cmd ops) (hlast : ops.length + 1 = kind.cmd.operandCount) :
    exec (row kind.cmd p (.operand x)) s = .next (s.takeStream kind.cmd kind p (ops ++ [x])) := by
  have htaken : linkBeat kind.cmd p (.operand x) (fun l t => t.takeStream kind.cmd kind p l) (fun _ _ t => t) s =
      .next (s.takeStream kind.cmd kind p (ops ++ [x])) := by
    rw [linkBeat_operand x h (by omega), if_neg (by omega)]
  cases kind <;> exact htaken

/-! ### The checks of R34 in order -/

section Checks
variable {s : State} {p : Port} {kind : StreamKind} {ops : List Byte}

theorem State.takeStream_refused {e : Ending} (hen : s.isEnabled p = true)
    (he : s.chainCheck kind.cmd p ops = .error e) :
    s.takeStream kind.cmd kind p ops = s.setLink p (.body kind.cmd ops (.refused e)) := by
  simp only [State.takeStream, hen, he]
  rfl

/-- Past the chain checks the offset decides. -/
theorem State.takeStream_checked {n : ChainNo} {offset : Nat} (hen : s.isEnabled p = true)
    (hn : s.chainCheck kind.cmd p ops = .ok n)
    (hoff : offset = if kind = .append then 0 else (opWord ops 2).toNat) :
    s.takeStream kind.cmd kind p ops =
      if 8192 ≤ offset then s.setLink p (.body kind.cmd ops (.refused ⟨.range, 0, 0⟩))
      else s.beginStream kind.cmd kind p ops n offset := by
  subst hoff
  simp only [State.takeStream, hen, hn]
  rfl

end Checks

/-- R12 for a stream: the owner in the command's states, or a holder that reads. -/
theorem chainCheck_stream {s : State} {p : Port} {kind : StreamKind} {nb gb : Byte} {rest : List Byte} {n : ChainNo}
    (h : Names s nb gb n)
    (hr : (s.recs[n].life.owner = some p ∧ s.recs[n].life.phase ∈ ownerStates kind.cmd) ∨
      (kind = .read ∧ s.recs[n].life.hasRole p .holder = true)) :
    s.chainCheck kind.cmd p (nb :: gb :: rest) = .ok n := by
  rcases hr with ⟨ho, hs⟩ | ⟨rfl, hhold⟩
  · exact chainCheck_owner kind.cmd_mem h (holdsRole_of_owner (List.ne_nil_of_mem hs) ho) ho hs
  · cases hl : s.recs[n].life with
    | delivering d l k =>
      exact chainCheck_delivering (StreamKind.cmd_mem _) h hl
        (by simp [-Fin.getElem_fin, StreamKind.cmd, holdsRole, hhold])
    | _ => simp [-Fin.getElem_fin, hl, Life.hasRole, Life.delivery] at hhold

/-! ### The stream at its start (R30, R35) -/

/-- The lease of a record, loaded by its state. -/
theorem Lease.ofLength_leaseLength (c : Settings) (g : Gen) (l : Life) :
    Lease.ofLength (leaseLength c l) g = loadedFor c g l := by
  cases l <;> rfl

theorem Staging.initial_eq (kind : StreamKind) (r : ChainRec) (offset : Nat) :
    Staging.initial kind r offset =
      if kind = .read ∧ offset < r.length then
        { base := lineBase r.blocks offset, cells := Vector.replicate 16 none, req := .fill }
      else { base := 0, cells := Vector.replicate 16 none, req := .none } := by
  simp only [Staging.initial, Bool.and_eq_true, decide_eq_true_eq]
  rfl

theorem State.beginStream_eq (s : State) (c : Cmd) (kind : StreamKind) (p : Port) (ops : List Byte) (n : ChainNo)
    (offset : Nat) :
    s.beginStream c kind p ops n offset =
      { s with
        leases := s.leases.set n (loadedFor s.committed s.recs[n].gen s.recs[n].life)
        pius := s.pius.set p
          { s.pius[p] with
            link := .body c ops .streaming
            wire := { bits := [], out := none }
            stream := some (Stream.initial kind ⟨n, s.recs[n].gen⟩ offset)
            staging := Staging.initial kind s.recs[n] offset } } := by
  rw [← Lease.ofLength_leaseLength]
  rfl

end Sys2Proof.Machine

namespace Sys2Proof.Proofs
open Machine

/-- Settles O24: the four answers of the chain checks, then the offset's range, then the stream's start. -/
theorem streamsTaken : Obligations.StreamsTaken := by
  intro s p c kind nb gb more ops x offset hkind h hops hlast hen hoff
  obtain rfl : c = kind.cmd := by rcases hkind with e | e | e <;> cases e <;> rfl
  have hrefused {e : Ending} (he : s.chainCheck kind.cmd p (nb :: gb :: more) = .error e) :
      exec (row kind.cmd p (.operand x)) s = .next (s.setLink p (.body kind.cmd (nb :: gb :: more) (.refused e))) := by
    rw [exec_streamOperand x h hlast, hops, State.takeStream_refused hen he]
  refine ⟨fun hr => hrefused (chainCheck_range hr),
    fun n hn hg => ⟨fun hst => hrefused (chainCheck_stale hn hg hst), ?_⟩⟩
  intro hv hgen
  have hnames : Names s nb gb n := ⟨hn, hgen.symm, hv⟩
  refine ⟨fun hrole => hrefused (chainCheck_notYours kind.cmd_mem hnames hrole), fun ho hs => ?_, fun hr => ?_⟩
  · have hrole := holdsRole_of_owner (c := kind.cmd) (by cases kind <;> decide) ho
    exact hrefused (chainCheck_wrongState kind.cmd_mem hnames hrole ho hs)
  · rw [exec_streamOperand x h hlast, hops, State.takeStream_checked hen (chainCheck_stream hnames hr) hoff]
    refine ⟨fun hlong => by rw [if_pos hlong], fun hshort => ?_⟩
    rw [if_neg (Nat.not_le.mpr hshort), State.beginStream_eq, Staging.initial_eq]
    rfl

end Sys2Proof.Proofs
end

section
/-! PROOFS. The data bytes of the three streams: a byte in (R37 to R39, R41), and a byte out (R30, R46, R47). -/

namespace Sys2Proof.Machine

/-! ### A byte of an open stream -/

section Bytes
variable {s : State} {p : Port} {c : Cmd} {ops : List Byte} {st : Stream}

/-- A stream's data phase drives the byte in the output stage, FFh while there is none. -/
theorem pnDO_streams (h : Streams s p c ops st) : s.pnDO p = some (st.shift.getD 0xFF) := by
  obtain ⟨⟨hsel, hlink⟩, hst⟩ := h
  simp [-Fin.getElem_fin, State.pnDO, hsel, hlink, hst, Body.outByte]

theorem dataByteIn_deaf (h : Streams s p c ops st) (hb : AtByte s p) (hd : st.deaf = true)
    (take : Stream → State → State) : dataByteIn c p take s = .next (s.byteEnd p) := by
  obtain ⟨⟨hsel, hlink⟩, hst⟩ := h
  simp [-Fin.getElem_fin, dataByteIn, State.midByte, hsel, hb, hlink, hst, hd]

theorem dataByteIn_takes (h : Streams s p c ops st) (hb : AtByte s p) (hd : st.deaf = false)
    (hreq : s.pius[p].staging.req = .none) (take : Stream → State → State) :
    dataByteIn c p take s = .next (take st (s.byteEnd p)) := by
  obtain ⟨⟨hsel, hlink⟩, hst⟩ := h
  simp [-Fin.getElem_fin, dataByteIn, State.midByte, hsel, hb, hlink, hst, hd, hreq]

end Bytes

theorem Stream.deaf_iff (st : Stream) : st.deaf = true ↔ st.revoked = true ∨ st.stopped ≠ none := by
  simp [Stream.deaf, Option.isSome_iff_ne_none]

theorem Stream.deaf_eq_false {st : Stream} (hr : st.revoked = false) (hs : st.stopped = none) : st.deaf = false := by
  simp [Stream.deaf, hr, hs]

/-- The byte's end and what the byte does to its PIU are one update. -/
theorem State.byteEnd_setPiu (s : State) (p : Port) (u : Piu) : (s.byteEnd p).setPiu p u = s.setPiu p u := by
  simp [State.byteEnd, State.setWire, State.setPiu]

/-! ### The address map (R3, R18) -/

/-- The lines of a block lie one after another, so a byte's place in its block is its offset modulo 128. -/
theorem byteAddr_eq (blocks : List Nat) (k : Nat) : byteAddr blocks k = 128 * blocks.getD (k / 128) 0 + k % 128 := by
  simp only [byteAddr, lineBase, Config.blockBytes, Config.lineBytes]
  omega

/-! ### Append Data (R37 to R39) -/

section Append
variable {s : State} {p : Port} {st : Stream}

theorem appendByte_inBlock (x : Byte) (h : s.recs[st.ref.num].length % 128 ≠ 0) :
    s.appendByte p st x = s.appendAccept p st x :=
  if_pos h

/-- A byte that must start a new block takes the Free List's head. -/
theorem appendByte_newBlock {b : Nat} {rest : List Nat} (x : Byte) (h : s.recs[st.ref.num].length % 128 = 0)
    (hblocks : s.recs[st.ref.num].blocks.length < 64) (hq : s.chBlocks[p] < s.committed.blockQuota p)
    (hfree : s.free = b :: rest) :
    s.appendByte p st x = ((s.freeFalls rest).grow st.ref.num p [b]).appendAccept p st x := by
  have hnew : ¬ s.recs[st.ref.num].length % Config.blockBytes ≠ 0 := not_not.mpr h
  have ha : s.allocate 1 = some ([b], s.freeFalls rest) := by
    rw [allocate_of_le (by simp [hfree]), hfree]
    rfl
  unfold State.appendByte
  dsimp only
  rw [if_neg hnew, if_neg (Nat.not_le.mpr hblocks), if_neg (Nat.not_le.mpr hq), ha]

/-- The first of R38's checks to fail stops the stream. -/
theorem appendByte_stops {why : ResultCode} (x : Byte) (h : s.recs[st.ref.num].length % 128 = 0)
    (hwhy : (64 ≤ s.recs[st.ref.num].blocks.length ∧ why = .tooLong) ∨
      (s.recs[st.ref.num].blocks.length < 64 ∧ s.committed.blockQuota p ≤ s.chBlocks[p] ∧ why = .quotaBlocks) ∨
      (s.recs[st.ref.num].blocks.length < 64 ∧ s.chBlocks[p] < s.committed.blockQuota p ∧ s.free = [] ∧
        why = .noBlock)) :
    s.appendByte p st x = s.appendStop p st why := by
  have hnew : ¬ s.recs[st.ref.num].length % Config.blockBytes ≠ 0 := not_not.mpr h
  unfold State.appendByte
  dsimp only
  rw [if_neg hnew]
  rcases hwhy with ⟨hblocks, rfl⟩ | ⟨hblocks, hq, rfl⟩ | ⟨hblocks, hq, hfree, rfl⟩
  · rw [if_pos hblocks]
  · rw [if_neg (Nat.not_le.mpr hblocks), if_pos hq]
  · rw [if_neg (Nat.not_le.mpr hblocks), if_neg (Nat.not_le.mpr hq), allocate_of_lt (by simp [hfree])]

/-- The length, the count and the staging line with an accepted byte. -/
theorem appendAccept_eq (s : State) (p : Port) (st : Stream) (x : Byte) :
    (s.byteEnd p).appendAccept p st x =
      { s with
        recs := s.recs.set st.ref.num
          { s.recs[st.ref.num] with length := s.recs[st.ref.num].length + 1 }
        pius := s.pius.set p
          { s.pius[p] with
            wire := { bits := [], out := none }
            stream := some { st with count := st.count + 1 }
            staging := s.pius[p].staging.place s.recs[st.ref.num].blocks s.recs[st.ref.num].length x } } := by
  unfold State.appendAccept
  dsimp only
  rw [State.byteEnd_piu]
  exact State.byteEnd_setPiu (s.setRec _ _) p _

/-- The same in a new block, which is charged. -/
theorem grow_appendAccept_eq (s : State) (p : Port) (st : Stream) (b : Nat) (x : Byte) :
    ((s.byteEnd p).grow st.ref.num p [b]).appendAccept p st x =
      { s with
        recs := s.recs.set st.ref.num
          { s.recs[st.ref.num] with
            length := s.recs[st.ref.num].length + 1, blocks := s.recs[st.ref.num].blocks ++ [b] }
        chBlocks := s.chBlocks.set p (s.chBlocks[p] + 1)
        pius := s.pius.set p
          { s.pius[p] with
            wire := { bits := [], out := none }
            stream := some { st with count := st.count + 1 }
            staging := s.pius[p].staging.place (s.recs[st.ref.num].blocks ++ [b]) s.recs[st.ref.num].length x } } := by
  have hrec : (s.grow st.ref.num p [b]).recs[st.ref.num] =
      { s.recs[st.ref.num] with blocks := s.recs[st.ref.num].blocks ++ [b] } := by
    simp [-Fin.getElem_fin, State.grow, get_set]
  refine (appendAccept_eq (s.grow st.ref.num p [b]) p st x).trans ?_
  rw [hrec]
  simp [-Fin.getElem_fin, State.grow, State.setRec, State.charge, set_get]

theorem appendStop_eq (s : State) (p : Port) (st : Stream) (why : ResultCode) :
    (s.byteEnd p).appendStop p st why =
      { s with
        pius := s.pius.set p
          { s.pius[p] with
            wire := { bits := [], out := none }
            stream := some { st with stopped := some why } } } := by
  unfold State.appendStop
  rw [State.byteEnd_piu]
  exact State.byteEnd_setPiu s p _

/-- The first byte of a block opens its first line and asks for no grant. -/
theorem Staging.place_newBlock {blocks : List Nat} {k : Nat} (x : Byte) (g : Staging) (h : k % 128 = 0) :
    g.place blocks k x = { base := lineBase blocks k, cells := g.cells.set 0 (some x), req := .none } := by
  have hk : k % 16 = 0 := by omega
  simp [Staging.place, hk]

end Append

/-! ### Rewrite Data (R41) -/

theorem rewriteByte_below {s : State} {p : Port} {st : Stream} (x : Byte)
    (h : st.offset < s.recs[st.ref.num].length) :
    (s.byteEnd p).rewriteByte p st x =
      { s with
        pius := s.pius.set p
          { s.pius[p] with
            wire := { bits := [], out := none }
            stream := some { st with offset := st.offset + 1, count := st.count + 1 }
            staging := s.pius[p].staging.place s.recs[st.ref.num].blocks st.offset x } } := by
  refine (if_pos h).trans ?_
  rw [State.byteEnd_piu]
  exact State.byteEnd_setPiu s p _

theorem rewriteByte_past {s : State} {p : Port} {st : Stream} (x : Byte)
    (h : s.recs[st.ref.num].length ≤ st.offset) :
    (s.byteEnd p).rewriteByte p st x =
      { s with
        pius := s.pius.set p
          { s.pius[p] with
            wire := { bits := [], out := none }
            stream := some { st with offset := st.offset + 1, short := true } } } := by
  refine (if_neg (Nat.not_lt.mpr h)).trans ?_
  rw [State.byteEnd_piu]
  exact State.byteEnd_setPiu s p _

/-! ### Read Data (R30, R46, R47) -/

section Read
variable {s : State} {p : Port} {ops : List Byte} {st : Stream}

/-- The dummy byte's end lets the first data byte into the output stage. -/
theorem execReadData_pass (h : Streams s p .readData ops st) (hb : AtByte s p) (hs : st.shift = none) :
    execReadData p .pass s = (s.byteEnd p).readNext p st := by
  obtain ⟨⟨hsel, hlink⟩, hst⟩ := h
  simp [-Fin.getElem_fin, execReadData, State.midByte, hsel, hb, hlink, hst, hs]

/-- A delivery lets the byte after it into the output stage. -/
theorem execReadDataByte_delivers (h : Streams s p .readData ops st) (hb : AtByte s p) (hs : st.shift ≠ none) :
    execReadDataByte p s = (s.byteEnd p).readNext p (st.deliver s.recs[st.ref.num].length) := by
  obtain ⟨⟨hsel, hlink⟩, hst⟩ := h
  simp [-Fin.getElem_fin, execReadDataByte, State.midByte, hsel, hb, hlink, hst, hs]

theorem Stream.deliver_ref (st : Stream) (len : Nat) : (st.deliver len).ref = st.ref := by
  unfold Stream.deliver
  split_ifs <;> rfl

/-- A byte that no line has to give enters at once; FFh enters. -/
theorem Piu.shiftOut_past {r : ChainRec} (u : Piu) (h : st.revoked = true ∨ r.length ≤ st.offset) :
    u.starved st r.length = false ∧ u.shiftOut st r = { u with stream := some { st with shift := some 0xFF } } := by
  refine ⟨?_, if_pos (by simpa using h)⟩
  rcases h with hr | hle
  · simp [Piu.starved, hr]
  · simp [Piu.starved, Nat.not_lt.mpr hle]

/-- A byte that the filled line gives enters, and the last one of a line asks for the next line. -/
theorem Piu.shiftOut_real {r : ChainRec} {b : Byte} (u : Piu) (hr : st.revoked = false) (hlt : st.offset < r.length)
    (hreq : u.staging.req = .none)
    (hcell : u.staging.cells[st.offset % 16]'(Nat.mod_lt _ (by decide)) = some b) :
    u.starved st r.length = false ∧ u.shiftOut st r =
      { u with
        stream := some { st with shift := some b }
        staging :=
          if st.offset % 16 = 15 ∧ st.offset + 1 < r.length then
            { base := lineBase r.blocks (st.offset + 1), cells := Vector.replicate 16 none, req := .fill }
          else u.staging } := by
  refine ⟨by simp [Piu.starved, hreq], (if_neg (by simpa [hr] using hlt)).trans ?_⟩
  simp only [hcell, Bool.and_eq_true, decide_eq_true_eq]
  rfl

/-- The next byte enters unless it has to wait for its line. -/
theorem readNext_eq {r : ChainRec} {u : Piu} (hrec : r = s.recs[st.ref.num])
    (h : Piu.starved { s.pius[p] with wire := { bits := [], out := none } } st r.length = false ∧
      Piu.shiftOut st r { s.pius[p] with wire := { bits := [], out := none } } = u) :
    (s.byteEnd p).readNext p st = .next { s with pius := s.pius.set p u } := by
  subst hrec
  obtain ⟨hstarved, rfl⟩ := h
  unfold State.readNext
  rw [State.byteEnd_piu]
  exact (if_neg (Bool.not_eq_true _ ▸ hstarved)).trans (congrArg _ (State.byteEnd_setPiu s p _))

end Read

end Sys2Proof.Machine

namespace Sys2Proof.Proofs
open Machine

/-- Settles O25: the byte of a deaf stream, and of an open one in each branch of R37 to R39. -/
theorem appendByteTaken : Obligations.AppendByteTaken := by
  refine ⟨fun blocks k => ⟨byteAddr_eq blocks k, rfl⟩, ?_⟩
  rintro s p ops st x r g h hb rfl rfl
  refine ⟨fun hs => by rw [pnDO_streams h, hs]; rfl, fun hd => dataByteIn_deaf h hb ((Stream.deaf_iff st).mpr hd) _, ?_⟩
  intro hr hs hreq
  have htaken : exec (.appendDataByte p x) s = .next ((s.byteEnd p).appendByte p st x) :=
    dataByteIn_takes h hb (Stream.deaf_eq_false hr hs) hreq _
  rw [htaken]
  refine ⟨fun hlen => ?_, fun b rest hlen hblocks hq hfree => ?_, fun why hlen hwhy => ?_⟩
  · rw [appendByte_inBlock x (by exact hlen), appendAccept_eq]
    rfl
  · rw [appendByte_newBlock x (by exact hlen) (by exact hblocks) (by exact hq) (by exact hfree),
      ← Staging.place_newBlock x s.pius[p].staging hlen]
    exact congrArg _ (grow_appendAccept_eq (s.freeFalls rest) p st b x)
  · rw [appendByte_stops x (by exact hlen) (by exact hwhy), appendStop_eq]

/-- Settles O26: the rewritten byte below and past the length; the byte driven; the next byte entering the output stage
after the dummy byte and after a delivery. -/
theorem rewriteAndReadBytes : Obligations.RewriteAndReadBytes := by
  refine ⟨?_, fun s p ops st h => ⟨fun hs => by rw [pnDO_streams h, hs]; rfl,
    fun b hs => by rw [pnDO_streams h, hs]; rfl⟩, ?_⟩
  · rintro s p ops st x r g h hb rfl rfl
    refine ⟨fun hs => by rw [pnDO_streams h, hs]; rfl,
      fun hr => dataByteIn_deaf h hb ((Stream.deaf_iff st).mpr (.inl hr)) _, fun hr hs hreq => ?_⟩
    have htaken : exec (.rewriteDataByte p x) s = .next ((s.byteEnd p).rewriteByte p st x) :=
      dataByteIn_takes h hb (Stream.deaf_eq_false hr hs) hreq _
    rw [htaken]
    exact ⟨fun hlt => congrArg _ (rewriteByte_below x hlt), fun hle => congrArg _ (rewriteByte_past x hle)⟩
  · rintro s p ops st st' r g i h hb hrec rfl hi
    have hnext : exec i s = (s.byteEnd p).readNext p st' ∧ r = s.recs[st'.ref.num] := by
      rcases hi with ⟨rfl, hs, rfl⟩ | ⟨rfl, hs, hst'⟩
      · exact ⟨execReadData_pass h hb hs, hrec⟩
      · obtain rfl : st' = st.deliver r.length := hst'
        exact ⟨hrec ▸ execReadDataByte_delivers h hb hs, by simpa only [Stream.deliver_ref] using hrec⟩
    obtain ⟨hexec, hrec'⟩ := hnext
    rw [hexec]
    exact ⟨fun hpast => readNext_eq hrec' (Piu.shiftOut_past _ hpast),
      fun b hr hlt hreq hcell => readNext_eq hrec' (Piu.shiftOut_real _ hr hlt hreq hcell)⟩

end Sys2Proof.Proofs
end

section
/-! PROOFS. What the rows of a port's link do to the machine beside its PIUs: one list of operations, and the walk through
the rows that finds no other. An invariant that no PIU has a part in is then looked at operation by operation. -/

namespace Sys2Proof.Machine

/-- The operations that a row of a port's link can be made of, with what its checks have passed: t comes from s by some of
them, the PIUs changed in any way. -/
inductive LinkEffect (s : State) : State → Prop where
  | nothing : LinkEffect s s
  | setPiu {t : State} (p : Port) (u : Piu) : LinkEffect s t → LinkEffect s (t.setPiu p u)
  | raise {t : State} (r : Reason) (p : Port) : LinkEffect s t → LinkEffect s (t.raise r p)
  | loadLease {t : State} {n : ChainNo} : LinkEffect s t → t.recs[n].life ≠ .vacant → LinkEffect s (t.loadLease n)
  | openAt {t : State} {n : ChainNo} (p : Port) (tag : Word) : LinkEffect s t → t.recs[n].life = .vacant →
      LinkEffect s (t.openAt n p tag)
  | extendChain {t : State} {n : ChainNo} {p : Port} {ops : List Byte} (count : Word) : LinkEffect s t →
      t.chainCheck .extendChain p ops = .ok n → LinkEffect s (extendChain p n count t).1
  | appendByte {t : State} (p : Port) (st : Stream) (x : Byte) : LinkEffect s t → LinkEffect s (t.appendByte p st x)
  | vacate {t : State} {n : ChainNo} {p : Port} {ops : List Byte} : LinkEffect s t →
      t.chainCheck .discardChain p ops = .ok n → LinkEffect s (t.vacate n)
  | sealChain {t : State} {n : ChainNo} {p : Port} {ops : List Byte} (l : Label) : LinkEffect s t →
      t.chainCheck .sealChain p ops = .ok n → LinkEffect s (t.placeSeal n p l)
  | unsealChain {t : State} {n : ChainNo} {p : Port} {ops : List Byte} (l : Label) : LinkEffect s t →
      t.chainCheck .unsealChain p ops = .ok n → LinkEffect s (t.unseal n p l)
  | handChain {t : State} {n : ChainNo} {p : Port} {ops : List Byte} (mask : Byte) : LinkEffect s t →
      t.chainCheck .handChain p ops = .ok n → LinkEffect s (handChain p n mask t).1
  | takeInbound {t : State} (p : Port) (b : Body) : LinkEffect s t → LinkEffect s (takeInbound p b t).1
  | releaseChain {t : State} {n : ChainNo} {p : Port} {ops : List Byte} (x : Byte) : LinkEffect s t →
      t.chainCheck .releaseChain p ops = .ok n → LinkEffect s (releaseChain p n x t).1
  | adoptChain {t : State} {n : ChainNo} {p : Port} {ops : List Byte} : LinkEffect s t →
      t.chainCheck .adoptChain p ops = .ok n → LinkEffect s (adoptChain p n t).1
  | recallChain {t : State} {n : ChainNo} {p : Port} {ops : List Byte} : LinkEffect s t →
      t.chainCheck .recallChain p ops = .ok n → LinkEffect s (recallChain n t).1
  | dropNotice {t : State} (p : Port) : LinkEffect s t → LinkEffect s (t.setNotq p t.notqs[p].tail)
  | writeEnables {t : State} (p : Port) (m : ReasonMask) : LinkEffect s t → LinkEffect s (t.setEnables p m)
  | clearEdges {t : State} (p : Port) (m : ReasonMask) : LinkEffect s t → LinkEffect s (t.acknowledge p m)
  | grantClaim {t : State} (p : Port) : LinkEffect s t → LinkEffect s (t.grantClaim p)
  | writeStaged {t : State} {p : Port} {staged : Settings} {i : Fin 23} {v : Word} : LinkEffect s t →
      t.stagedOf p = some staged → fieldInRange i v = true → LinkEffect s (t.writeStaged p staged i v)
  | endClaim {t : State} : LinkEffect s t → LinkEffect s t.endClaim
  | commit {t : State} {p : Port} {staged : Settings} : LinkEffect s t → t.stagedOf p = some staged →
      t.validate staged = none → LinkEffect s (t.commit p staged)
  | withdraw {t : State} (p : Port) (res : ResultRec) : LinkEffect s t → LinkEffect s (t.withdraw p res)

/-- A PIU is put back as it was. -/
theorem linkEffect_ignoresPius (s : State) : IgnoresPius (LinkEffect s) := fun t p u => by
  refine ⟨fun h => ?_, .setPiu p u⟩
  have hback : (t.setPiu p u).setPiu p t.pius[p] = t := by simp [State.setPiu]
  exact hback ▸ h.setPiu p t.pius[p]

section Rows
variable {s t : State} (h : LinkEffect s t)
include h

theorem LinkEffect.deselect (p : Port) : LinkEffect s (t.deselect p) := h.setPiu _ _
theorem LinkEffect.byteEnd (p : Port) : LinkEffect s (t.byteEnd p) := h.setPiu _ _
theorem LinkEffect.setWire (p : Port) (w : Wire) : LinkEffect s (t.setWire p w) := h.setPiu _ _
theorem LinkEffect.setLink (p : Port) (l : Link) : LinkEffect s (t.setLink p l) := h.setPiu _ _
theorem LinkEffect.record (p : Port) (c : Byte) (e : Ending) : LinkEffect s (t.record p c e) := h.setPiu _ _
theorem LinkEffect.linkError (p : Port) (c : Byte) (e : Ending) : LinkEffect s (t.linkError p c e) :=
  ((h.deselect p).record p c e).raise _ _

/-! ### Actions that touch no chain, and Open Chain -/

theorem LinkEffect.openChain (p : Port) (tag : Word) : LinkEffect s (openChain p tag t).1 := by
  unfold Machine.openChain
  split
  · exact h
  split
  · exact h
  · next n hn => exact h.openAt p tag (phase_vacant.mp (by simpa using List.find?_some hn))

theorem LinkEffect.takeNotice (p : Port) (b : Body) : LinkEffect s (takeNotice p b t).1 := by
  unfold Machine.takeNotice
  split
  · split
    · exact h
    · exact h.dropNotice p
  all_goals exact h

theorem LinkEffect.setEnables (p : Port) (m : Byte) : LinkEffect s (setEnables p m t).1 := by
  unfold Machine.setEnables
  split
  · exact h
  · exact h.writeEnables p _

theorem LinkEffect.acknowledgeAttention (p : Port) (m : Byte) : LinkEffect s (acknowledgeAttention p m t).1 := by
  unfold Machine.acknowledgeAttention
  split
  · exact h
  · exact h.clearEdges p _

theorem LinkEffect.claimSettings (p : Port) : LinkEffect s (claimSettings p t).1 := by
  unfold Machine.claimSettings
  split
  · exact h.grantClaim p
  · split <;> exact h

theorem LinkEffect.writeSetting (p : Port) (id : Byte) (v : Word) : LinkEffect s (writeSetting p id v t).1 := by
  unfold Machine.writeSetting
  split
  · exact h
  · exact h
  · next hstaged _ =>
    split
    · next hrange => exact h.writeStaged hstaged hrange
    · exact h

theorem LinkEffect.abandonSettings (p : Port) : LinkEffect s (abandonSettings p t).1 := by
  unfold Machine.abandonSettings
  split
  · exact h
  · exact h.endClaim

theorem LinkEffect.commitSettings (p : Port) : LinkEffect s (commitSettings p t) := by
  unfold Machine.commitSettings
  split
  · exact h.record _ _ _
  next hstaged =>
  split
  · exact h.record _ _ _
  next hvalid =>
  unfold State.recordCommit
  split
  · exact (h.commit hstaged hvalid).record _ _ _
  · exact h.commit hstaged hvalid

/-! ### Streams -/

theorem LinkEffect.takeStream (c : Cmd) (kind : StreamKind) (p : Port) (ops : List Byte) :
    LinkEffect s (t.takeStream c kind p ops) := by
  have hrefused (e : Ending) : LinkEffect s (t.refuseStream c p ops e) := h.setLink _ _
  unfold State.takeStream
  generalize (if kind = .append then 0 else (opWord ops 2).toNat) = offset
  dsimp only
  split
  · exact hrefused _
  split
  · exact hrefused _
  next hn =>
  split
  · exact hrefused _
  · obtain ⟨-, -, hlive, -⟩ := chainCheck_ok_iff hn
    exact (h.loadLease hlive).setPiu _ _

theorem LinkEffect.rewriteByte (p : Port) (st : Stream) (x : Byte) : LinkEffect s (t.rewriteByte p st x) := by
  unfold State.rewriteByte
  dsimp only
  split <;> exact h.setPiu _ _

theorem readNext_effect (p : Port) (st : Stream) : Leaves (LinkEffect s) (t.readNext p st) := by
  unfold State.readNext
  dsimp only
  split
  · simp
  · simpa using h.setPiu _ _

theorem execReadData_effect (p : Port) (b : Beat) : Leaves (LinkEffect s) (execReadData p b t) := by
  unfold execReadData
  split
  · split
    · simpa using h
    split
    · simp
    · exact readNext_effect (h.byteEnd p) p _
  · exact linkBeat_leaves (linkEffect_ignoresPius s) h (fun _ => h.takeStream _ _ _ _) fun _ _ => h.deselect p

theorem execReadDataByte_effect (p : Port) : Leaves (LinkEffect s) (execReadDataByte p t) := by
  have hnext := readNext_effect (h.byteEnd p) p
  unfold execReadDataByte
  repeat' split
  all_goals simp [h, h.byteEnd, hnext]

theorem execAppendDataByte_effect (p : Port) (x : Byte) : Leaves (LinkEffect s) (execAppendDataByte p x t) :=
  dataByteIn_leaves (linkEffect_ignoresPius s) h fun st => (h.byteEnd p).appendByte p st x

theorem execRewriteDataByte_effect (p : Port) (x : Byte) : Leaves (LinkEffect s) (execRewriteDataByte p x t) :=
  dataByteIn_leaves (linkEffect_ignoresPius s) h fun st => (h.byteEnd p).rewriteByte p st x

theorem LinkEffect.finishStream (p : Port) (st : Stream) : LinkEffect s (t.finishStream p st) :=
  (h.setPiu _ _).record _ _ _

theorem LinkEffect.closeStream (p : Port) (st : Stream) : LinkEffect s (t.closeStream p st) := by
  unfold State.closeStream
  split
  · exact (h.deselect p).setPiu _ _
  · exact (h.deselect p).finishStream p st

theorem execStreamClose_effect (p : Port) (b : CloseBeat) : Leaves (LinkEffect s) (execStreamClose p b t) := by
  cases b <;> dsimp only [execStreamClose]
  case rise =>
    unfold streamRise
    repeat' split
    all_goals simp [h, h.deselect, h.closeStream, (h.deselect p).record]
  case record =>
    unfold streamRecord
    repeat' split
    all_goals simp [h, h.finishStream]

/-! ### The rows of a command -/

theorem commandBeat_effect (c : Cmd) (p : Port) (b : Beat) : Leaves (LinkEffect s) (commandBeat c p b t) := by
  have hP := linkEffect_ignoresPius s
  have hd := h.deselect p
  cases c
  case appendData | rewriteData => exact linkBeat_leaves hP h (fun _ => h.takeStream _ _ _ _) fun _ _ => hd
  case readData => exact execReadData_effect h p b
  case openChain => exact recordedBeat_leaves hP h fun _ => hd.openChain p _
  case extendChain => exact chainBeat_leaves hP h fun _ _ hn => hd.extendChain _ hn
  case discardChain => exact chainBeat_leaves hP h fun _ _ hn => hd.vacate hn
  case renewLease =>
    refine chainBeat_leaves hP h fun n _ hn => ?_
    obtain ⟨-, -, hlive, -⟩ := chainCheck_ok_iff hn
    exact hd.loadLease hlive
  case sealChain => exact chainBeat_leaves hP h fun _ _ hn => hd.sealChain _ hn
  case unsealChain => exact chainBeat_leaves hP h fun _ _ hn => hd.unsealChain _ hn
  case handChain => exact chainBeat_leaves hP h fun _ _ hn => hd.handChain _ hn
  case takeInbound => exact takeBeat_leaves hP h fun body => hd.takeInbound p body
  case takeNotice => exact takeBeat_leaves hP h fun body => hd.takeNotice p body
  case releaseChain => exact chainBeat_leaves hP h fun _ _ hn => hd.releaseChain _ hn
  case adoptChain => exact chainBeat_leaves hP h fun _ _ hn => hd.adoptChain hn
  case recallChain => exact chainBeat_leaves hP h fun _ _ hn => hd.recallChain hn
  case setEnables => exact recordedBeat_leaves hP h fun _ => hd.setEnables p _
  case acknowledgeAttention => exact recordedBeat_leaves hP h fun _ => hd.acknowledgeAttention p _
  case claimSettings => exact recordedBeat_leaves hP h fun _ => hd.claimSettings p
  case writeSetting => exact recordedBeat_leaves hP h fun _ => hd.writeSetting p _ _
  case abandonSettings => exact recordedBeat_leaves hP h fun _ => hd.abandonSettings p
  case commitSettings => exact actionBeat_leaves hP h fun _ => hd.commitSettings p
  case portReset => exact actionBeat_leaves hP h fun _ => hd.withdraw p portResetResult
  all_goals exact queryBeat_leaves hP h

/-! ### The link's own rows -/

theorem execSelectRise_effect (p : Port) : Leaves (LinkEffect s) (execSelectRise p t) := by
  unfold execSelectRise
  repeat' split
  all_goals simp [h, h.deselect]

theorem execFraming_effect (p : Port) (bits : Fin 8) : Leaves (LinkEffect s) (execFraming p bits t) := by
  unfold execFraming
  repeat' split
  all_goals simp [h, h.deselect, h.linkError]

theorem execUnknownCommand_effect (p : Port) (b : UnknownBeat) :
    Leaves (LinkEffect s) (execUnknownCommand p b t) := by
  unfold execUnknownCommand
  repeat' split
  all_goals simp [h, h.deselect, h.setLink, h.byteEnd, h.linkError]

/-- The byte that the eighth bit makes whole is an event of its row. -/
theorem byteWhole_effect (p : Port) (x : Byte) : Leaves (LinkEffect s) (byteWhole p x t) := by
  unfold byteWhole
  split
  · simpa using h
  · split
    · exact commandBeat_effect h _ p _
    · exact execUnknownCommand_effect h p _
  · exact commandBeat_effect h _ p _
  · unfold bodyByte
    split
    · exact execAppendDataByte_effect h p x
    split
    · exact execRewriteDataByte_effect h p x
    split
    · exact execReadDataByte_effect h p
    · exact commandBeat_effect h _ p _
  · exact execUnknownCommand_effect h p _

theorem execSelectFall_effect (w : PortEdge) : Leaves (LinkEffect s) (execSelectFall w t) := by
  unfold execSelectFall
  split
  · unfold selectFalls
    split
    · simp
    · simpa using h.setPiu _ _
  · unfold clockRises
    split
    · simpa using h
    split
    · simpa using h.setWire _ _
    · exact holdPnDO_leaves (linkEffect_ignoresPius s) (byteWhole_effect (h.byteEnd _) _ _)
  · unfold clockFalls
    split
    · simpa using h
    · simpa using h.setWire _ _

end Rows

/-- A row of a port's link does nothing but these operations. -/
theorem exec_linkEffect {i : Instr} {p : Port} (hp : portOf i = some p) (s : State) :
    Leaves (LinkEffect s) (exec i s) := by
  have h : LinkEffect s s := .nothing
  have hcommand (c : Cmd) (q : Port) (b : Beat) : Leaves (LinkEffect s) (exec (row c q b) s) := by
    rw [exec_row]
    exact commandBeat_effect h c q b
  cases i
  case selectFall w => exact execSelectFall_effect h w
  case framing q bits => exact execFraming_effect h q bits
  case unknownCommand q b => exact execUnknownCommand_effect h q b
  case selectRise q => exact execSelectRise_effect h q
  case appendDataByte q x => exact execAppendDataByte_effect h q x
  case rewriteDataByte q x => exact execRewriteDataByte_effect h q x
  case readDataByte q => exact execReadDataByte_effect h q
  case streamClose q b => exact execStreamClose_effect h q b
  case readResult q b => exact hcommand .readResult q b
  case readAttention q b => exact hcommand .readAttention q b
  case readQueueStatus q b => exact hcommand .readQueueStatus q b
  case readFreeStatus q b => exact hcommand .readFreeStatus q b
  case readChainInfo q b => exact hcommand .readChainInfo q b
  case readSettings q b => exact hcommand .readSettings q b
  case identify q b => exact hcommand .identify q b
  case openChain q b => exact hcommand .openChain q b
  case appendData q b => exact hcommand .appendData q b
  case rewriteData q b => exact hcommand .rewriteData q b
  case readData q b => exact hcommand .readData q b
  case extendChain q b => exact hcommand .extendChain q b
  case sealChain q b => exact hcommand .sealChain q b
  case unsealChain q b => exact hcommand .unsealChain q b
  case discardChain q b => exact hcommand .discardChain q b
  case renewLease q b => exact hcommand .renewLease q b
  case handChain q b => exact hcommand .handChain q b
  case takeInbound q b => exact hcommand .takeInbound q b
  case releaseChain q b => exact hcommand .releaseChain q b
  case adoptChain q b => exact hcommand .adoptChain q b
  case recallChain q b => exact hcommand .recallChain q b
  case takeNotice q b => exact hcommand .takeNotice q b
  case setEnables q b => exact hcommand .setEnables q b
  case acknowledgeAttention q b => exact hcommand .acknowledgeAttention q b
  case claimSettings q b => exact hcommand .claimSettings q b
  case writeSetting q b => exact hcommand .writeSetting q b
  case commitSettings q b => exact hcommand .commitSettings q b
  case abandonSettings q b => exact hcommand .abandonSettings q b
  case portReset q b => exact hcommand .portReset q b
  all_goals cases hp

end Sys2Proof.Machine
end

section
/-! PROOFS. The Seal Queue and the engine against the SEALING records, chain by chain (R52, R55): what joins them, what
leaves them, and the operations that do neither. -/

namespace Sys2Proof.Machine

/-! ### The elements that a record asks for -/

/-- The elements that record n asks of the Seal Queue and the engine together (R52). -/
def ChainRec.sealRefs (n : ChainNo) (r : ChainRec) : List ChainRef :=
  if r.life.phase = .sealing then [⟨n, r.gen⟩] else []

theorem ChainRec.sealRefs_sealing {n : ChainNo} {r : ChainRec} (h : r.life.phase = .sealing) :
    r.sealRefs n = [⟨n, r.gen⟩] :=
  if_pos h

theorem ChainRec.sealRefs_not {n : ChainNo} {r : ChainRec} (h : r.life.phase ≠ .sealing) : r.sealRefs n = [] :=
  if_neg h

/-- R52 for every chain, nothing said of an IDLE engine. -/
def SealsExact (s : State) : Prop := ∀ n : ChainNo, s.sealRefs.filter (fun r => r.num = n) = s.recs[n].sealRefs n

theorem sealInv_iff (s : State) : SealInv s ↔ SealsExact s ∧ (s.sealEng = none → s.sealQ = []) := Iff.rfl

/-- An engine that is not IDLE holds its chain ahead of those that wait. -/
theorem State.sealRefs_running {s : State} {run : SealRun} (h : s.sealEng = some run) :
    s.sealRefs = run.ref :: s.sealQ := by
  simp [State.sealRefs, h]

theorem State.sealRefs_idle {s : State} (h : s.sealEng = none) : s.sealRefs = s.sealQ := by
  simp [State.sealRefs, h]

/-- The start of a run takes the queue's head under the engine. -/
theorem State.startRun_sealRefs (s : State) : s.startRun.sealRefs = s.sealRefs := by
  cases he : s.sealEng with
  | some run => simp [State.sealRefs, State.startRun, he]
  | none => cases hq : s.sealQ <;> simp [State.sealRefs, State.startRun, SealRun.start, he, hq]

/-- After the start of a run an IDLE engine leaves no chain waiting (R55). -/
theorem State.startRun_idle (s : State) : s.startRun.sealEng = none → s.startRun.sealQ = [] := by
  cases he : s.sealEng with
  | some run => simp [State.startRun, he]
  | none => cases hq : s.sealQ <;> simp [State.startRun, he, hq]

theorem SealsExact.startRun {s : State} (h : SealsExact s) : SealInv s.startRun :=
  ⟨fun n => by rw [State.startRun_sealRefs]; exact h n, s.startRun_idle⟩

/-- The run under the engine is of a SEALING record in its present generation, which does not wait besides. -/
theorem SealsExact.run {s : State} {run : SealRun} (h : SealsExact s) (he : s.sealEng = some run) :
    s.recs[run.ref.num].life.phase = .sealing ∧ s.recs[run.ref.num].gen = run.ref.gen ∧
    s.sealRefs.filter (fun r => r.num ≠ run.ref.num) = s.sealQ := by
  have hn := h run.ref.num
  rw [State.sealRefs_running he, List.filter_cons_of_pos (by simp)] at hn
  by_cases hp : s.recs[run.ref.num].life.phase = .sealing
  · rw [ChainRec.sealRefs_sealing hp] at hn
    obtain ⟨href, hq⟩ := List.cons.inj hn
    refine ⟨hp, (congrArg ChainRef.gen href).symm, ?_⟩
    rw [State.sealRefs_running he, List.filter_cons_of_neg (by simp), List.filter_eq_self]
    exact fun r hr => by simpa using List.filter_eq_nil_iff.mp hq r hr
  · rw [ChainRec.sealRefs_not hp] at hn
    cases hn

/-! ### What leaves the records and the queue in agreement -/

/-- What keeps the elements, and what each record asks for, keeps the agreement. -/
theorem SealInv.congr {s t : State} (h : SealInv s) (hr : ∀ n : ChainNo, t.recs[n].sealRefs n = s.recs[n].sealRefs n)
    (hq : t.sealQ = s.sealQ) (he : t.sealEng.map (·.ref) = s.sealEng.map (·.ref)) : SealInv t := by
  obtain ⟨hexact, hidle⟩ := h
  have hrefs : t.sealRefs = s.sealRefs := by rw [State.sealRefs, State.sealRefs, he, hq]
  refine ⟨fun n => by rw [hrefs]; exact (hexact n).trans (hr n).symm, fun hnone => ?_⟩
  rw [hq]
  exact hidle (Option.map_eq_none_iff.mp (by rw [← he, hnone]; rfl))

/-- The Chain Table, the Seal Queue and the engine are all that is looked at. -/
theorem SealInv.frame {s t : State} (h : SealInv s) (hr : t.recs = s.recs) (hq : t.sealQ = s.sealQ)
    (he : t.sealEng = s.sealEng) : SealInv t :=
  h.congr (fun n => by rw [hr]) hq (by rw [he])

theorem sealInv_ignoresPius : IgnoresPius SealInv := fun _ _ _ =>
  ⟨fun h => h.frame rfl rfl rfl, fun h => h.frame rfl rfl rfl⟩

/-- A record is replaced by one that asks for the same element, or like it for none. -/
theorem SealInv.setRec {s : State} {n : ChainNo} {r : ChainRec} (h : SealInv s)
    (hr : r.sealRefs n = s.recs[n].sealRefs n) : SealInv (s.setRec n r) := by
  refine h.congr (fun m => ?_) rfl rfl
  rw [State.setRec_recs, get_set]
  split
  · next hm => exact hm ▸ hr
  · rfl

/-- A record that is not SEALING takes a state other than SEALING. -/
theorem SealInv.relabel {s : State} {n : ChainNo} {r : ChainRec} (h : SealInv s)
    (hs : s.recs[n].life.phase ≠ .sealing) (hr : r.life.phase ≠ .sealing) : SealInv (s.setRec n r) :=
  h.setRec ((ChainRec.sealRefs_not hr).trans (ChainRec.sealRefs_not hs).symm)

/-- A record changes its length or its blocks. -/
theorem SealInv.resize {s : State} {n : ChainNo} {r : ChainRec} (h : SealInv s) (hl : r.life = s.recs[n].life)
    (hg : r.gen = s.recs[n].gen) : SealInv (s.setRec n r) :=
  h.setRec (by unfold ChainRec.sealRefs; rw [hl, hg])

/-! ### A chain joins, a chain leaves -/

/-- A record becomes SEALING and its element joins the others (R54). -/
theorem SealsExact.join {s t : State} {n : ChainNo} (h : SealsExact s) (hs : s.recs[n].life.phase ≠ .sealing)
    (hrefs : t.sealRefs = s.sealRefs ++ [⟨n, t.recs[n].gen⟩]) (hother : ∀ m, n ≠ m → t.recs[m] = s.recs[m])
    (hn : t.recs[n].life.phase = .sealing) : SealsExact t := by
  intro m
  rw [hrefs, List.filter_append, h m]
  by_cases hm : n = m
  · subst hm
    rw [ChainRec.sealRefs_not hs, ChainRec.sealRefs_sealing hn]
    simp
  · rw [hother m hm]
    simp [hm]

/-- A record is SEALING no longer and its elements are gone (R58, R60). -/
theorem SealsExact.leave {s t : State} {n : ChainNo} (h : SealsExact s)
    (hrefs : t.sealRefs = s.sealRefs.filter (fun r => r.num ≠ n)) (hother : ∀ m, n ≠ m → t.recs[m] = s.recs[m])
    (hn : t.recs[n].life.phase ≠ .sealing) : SealsExact t := by
  intro m
  rw [hrefs, List.filter_filter]
  by_cases hm : n = m
  · subst hm
    rw [ChainRec.sealRefs_not hn, List.filter_eq_nil_iff]
    simp
  · rw [hother m hm, ← h m]
    refine List.filter_congr fun r _ => ?_
    by_cases hr : r.num = m
    · simp [hr, Ne.symm hm]
    · simp [hr]

/-- The cancelling of a seal takes the chain's element away, whatever the record's state (R60). -/
theorem SealInv.cancelIfSealing {s : State} (h : SealInv s) (n : ChainNo) :
    (s.cancelIfSealing n).sealRefs = s.sealRefs.filter (fun r => r.num ≠ n) ∧
    ((s.cancelIfSealing n).sealEng = none → (s.cancelIfSealing n).sealQ = []) := by
  obtain ⟨hexact, hidle⟩ := (sealInv_iff s).mp h
  by_cases hp : s.recs[n].life.phase = .sealing
  · by_cases hrun : ∀ run, s.sealEng = some run → run.ref.num ≠ n
    · rw [State.cancelIfSealing_queued hp hrun]
      cases he : s.sealEng with
      | none => simp [State.sealRefs, he, hidle he]
      | some run => simp [State.sealRefs, he, hrun run he]
    · push Not at hrun
      obtain ⟨run, he, rfl⟩ := hrun
      have hnext : s.cancelIfSealing run.ref.num = ({ s with sealEng := none } : State).startRun :=
        State.cancelIfSealing_running hp he rfl
      obtain ⟨-, -, hrefs⟩ := hexact.run he
      rw [hnext, State.startRun_sealRefs, hrefs]
      exact ⟨State.sealRefs_idle rfl, State.startRun_idle _⟩
  · rw [State.cancelIfSealing_not hp]
    refine ⟨(List.filter_eq_self.mpr fun r hr => ?_).symm, hidle⟩
    have hnone := hexact n
    rw [ChainRec.sealRefs_not hp, List.filter_eq_nil_iff] at hnone
    simpa using hnone r hr

/-- A record whose seal has been cancelled takes a state other than SEALING. -/
theorem SealInv.cancelled {s t : State} {n : ChainNo} {r : ChainRec} (h : SealInv s)
    (hrecs : t.recs = s.recs.set n r) (hr : r.life.phase ≠ .sealing) (hq : t.sealQ = (s.cancelIfSealing n).sealQ)
    (he : t.sealEng = (s.cancelIfSealing n).sealEng) : SealInv t := by
  obtain ⟨hrefs, hidle⟩ := h.cancelIfSealing n
  refine ⟨SealsExact.leave (n := n) h.1 ?_ (fun m hm => ?_) ?_, ?_⟩
  · rw [← hrefs, State.sealRefs, State.sealRefs, hq, he]
  · rw [hrecs, get_set, if_neg hm]
  · rw [hrecs, get_set, if_pos rfl]
    exact hr
  · rw [hq, he]
    exact hidle

/-! ### The operations on chains -/

theorem SealInv.vacate {s : State} (h : SealInv s) (n : ChainNo) : SealInv (s.vacate n) :=
  h.cancelled (s.vacate_recs n) (by simp [Life.phase]) (s.vacate_seal n).1 (s.vacate_seal n).2

theorem SealInv.unseal {s : State} (h : SealInv s) (n : ChainNo) (p : Port) (l : Label) : SealInv (s.unseal n p l) :=
  h.cancelled (n := n) (r := { s.recs[n] with life := .opened p l }) (by simp [State.unseal]) (by simp [Life.phase])
    rfl rfl

/-- A chain that is not SEALING is placed, and an IDLE engine starts. -/
theorem SealInv.placeSeal {s : State} {n : ChainNo} (h : SealInv s) (hs : s.recs[n].life.phase ≠ .sealing) (p : Port)
    (l : Label) : SealInv (s.placeSeal n p l) := by
  refine SealsExact.startRun (SealsExact.join (n := n) h.1 hs ?_ (fun m hm => ?_) ?_)
  · simp [State.sealRefs]
  · simp [-Fin.getElem_fin, get_set, hm]
  · simp [Life.phase]

/-- A completion acts on a record that is SEALING in the run's generation (R58). -/
theorem State.complete_acts {s : State} {run : SealRun} {o : Port} {l : Label}
    (hl : s.recs[run.ref.num].life = .sealing o l) (hg : s.recs[run.ref.num].gen = run.ref.gen) :
    s.complete run = (s.setRec run.ref.num { s.recs[run.ref.num] with life := .sealed o l run.reg }).offer o
      (.sealed run.ref l.tag run.reg s.recs[run.ref.num].length) := by
  simp only [State.complete, hl, hg, if_true]

/-- The completion of the run under the engine: by R52 its record is SEALING in its generation, and becomes SEALED. -/
theorem SealInv.complete {s : State} {run : SealRun} (h : SealInv s) (he : s.sealEng = some run) :
    SealInv ({ s.complete run with sealEng := none } : State).startRun := by
  obtain ⟨hexact, -⟩ := (sealInv_iff s).mp h
  obtain ⟨hp, hgen, hrefs⟩ := hexact.run he
  obtain ⟨o, l, hl⟩ : ∃ o l, s.recs[run.ref.num].life = .sealing o l := by
    cases hl : s.recs[run.ref.num].life with
    | sealing o l => exact ⟨o, l, rfl⟩
    | _ => rw [hl] at hp; cases hp
  rw [State.complete_acts hl hgen]
  refine SealsExact.startRun (hexact.leave (n := run.ref.num) ?_ (fun m hm => ?_) ?_)
  · exact (State.sealRefs_idle rfl).trans hrefs.symm
  · simp [-Fin.getElem_fin, get_set, hm]
  · simp [-Fin.getElem_fin, get_set, Life.phase]

end Sys2Proof.Machine
end

section
/-! PROOFS. The Seal Queue and the engine across every operation and every row (R52, R55). -/

namespace Sys2Proof.Machine

/-! ### Growth -/

theorem SealInv.freeFalls {s : State} (h : SealInv s) (l : List Nat) : SealInv (s.freeFalls l) := h.frame rfl rfl rfl

theorem SealInv.grow {s : State} (h : SealInv s) (n : ChainNo) (p : Port) (bs : List Nat) : SealInv (s.grow n p bs) :=
  (h.resize (n := n) (r := { s.recs[n] with blocks := s.recs[n].blocks ++ bs }) rfl rfl).frame rfl rfl rfl

theorem SealInv.lengthen {s : State} (h : SealInv s) (n : ChainNo) (len : Nat) : SealInv (s.lengthen n len) :=
  (h.resize (n := n) (r := { s.recs[n] with length := len }) rfl rfl).frame rfl rfl rfl

theorem SealInv.extendChain {s : State} (h : SealInv s) (p : Port) (n : ChainNo) (count : Word) :
    SealInv (extendChain p n count s).1 := by
  obtain e | ⟨len, -, -, ⟨-, e⟩ | ⟨bs, t, halloc, -, e⟩⟩ := extendChain_cases p n count s <;> rw [e]
  · exact h
  · exact h.lengthen n len
  · obtain ⟨-, -, rfl⟩ := allocate_some halloc
    exact ((h.freeFalls _).grow n p bs).lengthen n len

theorem SealInv.appendAccept {s : State} (h : SealInv s) (p : Port) (st : Stream) (x : Byte) :
    SealInv (s.appendAccept p st x) :=
  (sealInv_ignoresPius _ _ _).mpr (h.resize rfl rfl)

theorem SealInv.appendByte {s : State} (h : SealInv s) (p : Port) (st : Stream) (x : Byte) :
    SealInv (s.appendByte p st x) := by
  obtain ⟨why, e⟩ | ⟨-, e⟩ | ⟨-, -, bs, t, halloc, e⟩ := appendByte_cases p st x s <;> rw [e]
  · exact (sealInv_ignoresPius _ _ _).mpr h
  · exact h.appendAccept p st x
  · obtain ⟨-, -, rfl⟩ := allocate_some halloc
    exact ((h.freeFalls _).grow st.ref.num p bs).appendAccept p st x

/-! ### Open, hand, take, adopt, recall -/

theorem SealInv.openAt {s : State} {n : ChainNo} (h : SealInv s) (hv : s.recs[n].life = .vacant) (p : Port) (tag : Word) :
    SealInv (s.openAt n p tag) :=
  (h.relabel (n := n) (r := { gen := s.recs[n].gen, life := .opened p ⟨tag, 0⟩, length := 0, blocks := [] })
    (by simp [-Fin.getElem_fin, hv, Life.phase]) (by simp [Life.phase])).frame rfl rfl rfl

/-- A command that R12 accepts in other states than SEALING never meets a SEALING record. -/
theorem chainCheck_not_sealing {s : State} {c : Cmd} {p : Port} {ops : List Byte} {n : ChainNo}
    (h : s.chainCheck c p ops = .ok n) (hc : ∀ row ∈ roleRows c, .sealing ∉ row.2) :
    s.recs[n].life.phase ≠ .sealing := by
  obtain ⟨-, -, -, row, hrow, -, hphase⟩ := chainCheck_ok_iff h
  exact fun e => hc row hrow (e ▸ hphase)

theorem SealInv.handChain {s : State} {n : ChainNo} (h : SealInv s) (hs : s.recs[n].life.phase ≠ .sealing) (p : Port)
    (mask : Byte) : SealInv (handChain p n mask s).1 := by
  unfold Machine.handChain
  dsimp only
  split
  · exact h
  split
  · exact h
  split
  · exact h
  · have hhanded (d : Delivery) (l : Label) (k : Word) :
        SealInv (s.setRec n { s.recs[n] with life := .delivering d l k }) := h.relabel hs (by simp [Life.phase])
    exact (hhanded (Delivery.start p (mask.setWidth 4)) (s.recs[n].life.label.getD ⟨0, 0⟩)
      (s.recs[n].life.check.getD 0)).frame rfl rfl rfl

/-- A delivery takes another state, a delivery again or SEALED. -/
theorem SealInv.relabel_delivering {s : State} {n : ChainNo} {d : Delivery} {l : Label} {k : Word} {r : ChainRec}
    (h : SealInv s) (hl : s.recs[n].life = .delivering d l k) (hr : r.life.phase ≠ .sealing) : SealInv (s.setRec n r) :=
  h.relabel (by simp [-Fin.getElem_fin, hl, Life.phase]) hr

theorem SealInv.takeLive {s : State} (h : SealInv s) (p : Port) (ref : ChainRef) : SealInv (s.takeLive p ref) := by
  unfold State.takeLive
  dsimp only
  split
  · next d l k hl =>
    split
    · exact (h.relabel_delivering (r := { s.recs[ref.num] with
        life := .delivering { d with pend := without d.pend p, hold := withPort d.hold p } l k }) hl
        (by simp [Life.phase])).frame rfl rfl rfl
    · exact h
  all_goals exact h

theorem SealInv.takeInbound {s : State} (h : SealInv s) (p : Port) (b : Body) : SealInv (takeInbound p b s).1 := by
  have hremoved (q : InQueue) : SealInv (s.setInq p q) := h.frame rfl rfl rfl
  unfold Machine.takeInbound
  split
  · split
    · exact h
    split
    · unfold takeHead
      dsimp only
      split
      · exact hremoved _
      · exact (hremoved _).takeLive p _
    · exact h
  all_goals exact h

theorem SealInv.adoptChain {s : State} (h : SealInv s) (p : Port) (n : ChainNo) : SealInv (adoptChain p n s).1 := by
  unfold Machine.adoptChain
  split
  · next d l k hl =>
    repeat' split
    case isFalse.isFalse.isFalse.isFalse =>
      exact (h.relabel_delivering (r := { s.recs[n] with life := .sealed p ⟨l.tag, l.hops + 1⟩ k }) hl
        (by simp [Life.phase])).frame (by simp [State.adopt]) (by simp [State.adopt]) (by simp [State.adopt])
    all_goals exact h
  all_goals exact h

theorem SealInv.recallChain {s : State} (h : SealInv s) (n : ChainNo) : SealInv (recallChain n s).1 := by
  unfold Machine.recallChain
  split
  · next d l k hl =>
    split
    · exact h
    · exact (h.relabel_delivering (r := { s.recs[n] with life := .sealed d.origin l k }) hl
        (by simp [Life.phase])).frame rfl rfl rfl
  all_goals exact h

/-! ### Departure, release, expiry, withdrawal -/

theorem SealInv.offer {s : State} (h : SealInv s) (p : Port) (m : Notice) : SealInv (s.offer p m) := h.frame rfl rfl rfl

theorem SealInv.depart {s : State} (h : SealInv s) (p : Port) (how : Departure) (n : ChainNo) :
    SealInv (s.depart p how n) := by
  unfold State.depart
  split
  · next d l k hl =>
    have hleft : SealInv (s.setRec n { s.recs[n] with life := .delivering (d.leave p how) l k }) :=
      h.relabel_delivering hl (by simp [Life.phase])
    dsimp only
    split
    · exact (hleft.offer _ _).vacate n
    · exact hleft
  all_goals exact h

theorem SealInv.releaseChain {s : State} (h : SealInv s) (p : Port) (n : ChainNo) (x : Byte) :
    SealInv (releaseChain p n x s).1 := by
  unfold Machine.releaseChain State.releaseBy
  split
  · exact h
  · next how _ _ _ =>
    dsimp only
    split
    · exact h.depart p how n
    · exact (h.depart p how n).frame rfl rfl rfl
  · exact h

theorem SealInv.expire {s : State} (h : SealInv s) (n : ChainNo) : SealInv (s.expire n) :=
  SealInv.vacate (h.frame (by simp) (by simp) (by simp)) n

theorem SealInv.withdraw {s : State} (h : SealInv s) (p : Port) (res : ResultRec) : SealInv (s.withdraw p res) := by
  have hchains : SealInv ((s.withdrawOrder p).foldl (State.withdrawFrom p) s) := by
    generalize s.withdrawOrder p = l
    induction l generalizing s with
    | nil => exact h
    | cons n l ih =>
      refine ih ?_
      unfold State.withdrawFrom
      split
      · exact h.vacate n
      · exact h.depart p _ n
  exact hchains.frame rfl rfl rfl

theorem SealInv.withdrawAll {s : State} (h : SealInv s) (m : PortSet) : SealInv (s.withdrawAll m) := by
  unfold State.withdrawAll
  generalize s.portOrder m = l
  induction l generalizing s with
  | nil => exact h
  | cons q l ih => exact ih (h.withdraw q disabledResult)

theorem SealInv.commit {s : State} (h : SealInv s) (p : Port) (staged : Settings) : SealInv (s.commit p staged) := by
  have happlied : SealInv (s.applySettings staged) := h.frame rfl rfl rfl
  exact (happlied.withdrawAll (s.disables staged)).frame (by simp [State.commit, State.endClaim])
    (by simp [State.commit, State.endClaim]) (by simp [State.commit, State.endClaim])

/-! ### Every row -/

/-- Each operation of a link's row: the chains' own above, the others touch neither a record nor a seal. -/
theorem SealInv.linkEffect {s t : State} (h : SealInv s) (ht : LinkEffect s t) : SealInv t := by
  induction ht with
  | nothing => exact h
  | openAt p tag _ hv ih => exact ih.openAt hv p tag
  | extendChain count _ _ ih => exact ih.extendChain _ _ count
  | appendByte p st x _ ih => exact ih.appendByte p st x
  | vacate _ _ ih => exact ih.vacate _
  | sealChain l _ hn ih => exact ih.placeSeal (chainCheck_not_sealing hn (by decide)) _ l
  | unsealChain l _ _ ih => exact ih.unseal _ _ l
  | handChain mask _ hn ih => exact ih.handChain (chainCheck_not_sealing hn (by decide)) _ mask
  | takeInbound p b _ ih => exact ih.takeInbound p b
  | releaseChain x _ _ ih => exact ih.releaseChain _ _ x
  | adoptChain _ _ ih => exact ih.adoptChain _ _
  | recallChain _ _ ih => exact ih.recallChain _
  | commit _ _ _ ih => exact ih.commit _ _
  | withdraw p res _ ih => exact ih.withdraw p res
  | setPiu | raise | loadLease | dropNotice | writeEnables | clearEdges | grantClaim | writeStaged | endClaim =>
    next ih => exact ih.frame rfl rfl rfl

/-- A row that leaves the Chain Table, the Seal Queue and the engine. -/
theorem SealInv.leaves {s t : State} (h : SealInv s) (hr : t.recs = s.recs) (hq : t.sealQ = s.sealQ)
    (he : t.sealEng = s.sealEng) : Leaves SealInv (.next t) :=
  (leaves_next _ _).mpr (h.frame hr hq he)

theorem sealInv_deviceReset (s : State) (resetn : Bool) : SealInv (s.deviceReset resetn) :=
  sealInv_reset.frame rfl rfl rfl

/-- A line read moves the run's offset and register, not its chain (R56). -/
theorem execSealLineRead_seals {s : State} (h : SealInv s) : Leaves SealInv (execSealLineRead s) := by
  unfold execSealLineRead
  split
  · next he =>
    split
    · simpa using h
    split
    · simp
    · exact (leaves_next _ _).mpr (h.congr (fun _ => rfl) rfl (by rw [he]; rfl))
  · simpa using h

theorem execSealCompletion_seals {s : State} (h : SealInv s) : Leaves SealInv (execSealCompletion s) := by
  unfold execSealCompletion
  split
  · next he =>
    split
    · simpa using h.complete he
    · simpa using h
  · simpa using h

theorem execChainLeaseExpiry_seals {s : State} (h : SealInv s) (n : ChainNo) :
    Leaves SealInv (execChainLeaseExpiry n s) := by
  unfold execChainLeaseExpiry
  split
  · split
    · simpa using h.expire n
    · exact h.leaves rfl rfl rfl
  all_goals simpa using h

theorem execClaimLeaseExpiry_seals {s : State} (h : SealInv s) : Leaves SealInv (execClaimLeaseExpiry s) := by
  unfold execClaimLeaseExpiry State.lapse
  split
  · split <;> exact h.leaves rfl rfl rfl
  all_goals simpa using h

theorem execStagingLineWrite_seals {s : State} (h : SealInv s) (p : Port) :
    Leaves SealInv (execStagingLineWrite p s) := by
  unfold execStagingLineWrite
  split
  · simpa using h
  split
  · simp
  · exact h.leaves rfl rfl rfl

theorem execStagingLineFill_seals {s : State} (h : SealInv s) (p : Port) :
    Leaves SealInv (execStagingLineFill p s) := by
  unfold execStagingLineFill
  split
  · simpa using h
  split
  · simp
  · exact h.leaves rfl rfl rfl

theorem execClearingStart_seals {s : State} (h : SealInv s) : Leaves SealInv (execClearingStart s) := by
  unfold execClearingStart
  split
  · exact h.leaves rfl rfl rfl
  all_goals simpa using h

theorem execClearLineWrite_seals {s : State} (h : SealInv s) : Leaves SealInv (execClearLineWrite s) := by
  unfold execClearLineWrite
  split
  · split
    · simp
    split
    · exact h.leaves (by simp [State.fillLine]) (by simp [State.fillLine]) (by simp [State.fillLine])
    · exact h.leaves (by simp [State.completeClearing, State.fillLine])
        (by simp [State.completeClearing, State.fillLine]) (by simp [State.completeClearing, State.fillLine])
  · simpa using h

theorem execTick_seals {s : State} (h : SealInv s) : Leaves SealInv (execTick s) := by
  unfold execTick
  split <;> exact h.leaves rfl rfl rfl

theorem execRefclkPeriod_seals {s : State} (h : SealInv s) : Leaves SealInv (execRefclkPeriod s) := by
  unfold execRefclkPeriod
  split
  · simpa using h
  split <;> exact h.leaves rfl rfl rfl

theorem execInitializationComplete_seals {s : State} (h : SealInv s) :
    Leaves SealInv (execInitializationComplete s) := by
  unfold execInitializationComplete
  split <;> exact h.leaves rfl rfl rfl

/-- The rows of the part's own agents one by one, the rows of a port's link by their operations. -/
theorem exec_seals (i : Instr) {s : State} (h : SealInv s) : Leaves SealInv (exec i s) := by
  cases hp : portOf i with
  | some p => exact fun t ht => h.linkEffect (exec_linkEffect hp s t ht)
  | none =>
    cases i
    case powerOn | resetnAssertion => exact (leaves_next _ _).mpr (sealInv_deviceReset s _)
    case resetnRelease => exact h.leaves rfl rfl rfl
    case initializationComplete => exact execInitializationComplete_seals h
    case stagingLineWrite p => exact execStagingLineWrite_seals h p
    case stagingLineFill p => exact execStagingLineFill_seals h p
    case sealLineRead => exact execSealLineRead_seals h
    case sealCompletion => exact execSealCompletion_seals h
    case tick => exact execTick_seals h
    case chainLeaseExpiry n => exact execChainLeaseExpiry_seals h n
    case claimLeaseExpiry => exact execClaimLeaseExpiry_seals h
    case clearingStart => exact execClearingStart_seals h
    case clearLineWrite => exact execClearLineWrite_seals h
    case refclkPeriod => exact execRefclkPeriod_seals h
    all_goals cases hp

/-- The queue of commands is no part of the seals, and an empty one idles. -/
theorem step_seals {s : State} (h : SealInv s) : Leaves SealInv (step s) := by
  unfold step
  split
  · simpa using h
  · exact exec_seals _ (h.frame rfl rfl rfl)

end Sys2Proof.Machine

namespace Sys2Proof.Proofs

/-- Settles O56: a chain joins the Seal Queue as its record becomes SEALING, and leaves the queue or the engine as its
record leaves that state. -/
theorem sealQueueExact : Obligations.SealQueueExact :=
  fun _ t h hs => Machine.step_seals hs t h

end Sys2Proof.Proofs
end

section
/-! PROOFS. Seal Chain and Unseal Chain (R54, R55, R59, R60), the line reads and the completion of the Seal Engine (R56,
R58), and the check value (R57). -/

namespace Sys2Proof.Machine

/-! ### Seal Chain (R54, R55) -/

/-- An owner's command is answered from its record once its checks have passed. -/
theorem execSealChain_rise {s : State} {p : Port} {nb gb : Byte} {n : ChainNo} {l : Label}
    (h : Waits s p .sealChain [nb, gb]) (hn : Names s nb gb n) (hl : s.recs[n].life = .opened p l) :
    exec (.sealChain p .rise) s =
      .next (((s.deselect p).placeSeal n p l).record p 0x25 ⟨.ok, w16 s.sealsAhead, w16 s.recs[n].length⟩) := by
  have hlabel : s.recs[n].life.label.getD ⟨0, 0⟩ = l := by rw [hl]; rfl
  subst hlabel
  exact chainBeat_ok h (by decide) (chainCheck_opened (by decide) (by decide) hn hl) _

/-- A chain placed at an IDLE engine runs at once. -/
theorem State.placeSeal_idle {s : State} (he : s.sealEng = none) (hq : s.sealQ = []) (n : ChainNo) (p : Port)
    (l : Label) (e : Ending) :
    ((s.deselect p).placeSeal n p l).record p 0x25 e =
      { s with
        recs := s.recs.set n { s.recs[n] with life := .sealing p l }
        leases := s.leases.set n (loaded (s.committed.ownerLease p) s.recs[n].gen)
        sealEng := some
          { ref := ⟨n, s.recs[n].gen⟩, length := s.recs[n].length, next := 0, reg := 0xFFFF,
            finishing := s.recs[n].length = 0 }
        pius := s.pius.set p (s.pius[p].answered 0x25 e) } := by
  simp [-Fin.getElem_fin, get_set, State.placeSeal, State.startRun, State.record, State.setPiu, State.loadLease,
    State.setLease, State.setRec, State.deselect, SealRun.start, Piu.answered, leaseLength, Lease.ofLength, loaded, he, hq]

/-- A chain placed at a running engine joins the tail. -/
theorem State.placeSeal_busy {s : State} {run : SealRun} (he : s.sealEng = some run) (n : ChainNo) (p : Port)
    (l : Label) (e : Ending) :
    ((s.deselect p).placeSeal n p l).record p 0x25 e =
      { s with
        recs := s.recs.set n { s.recs[n] with life := .sealing p l }
        leases := s.leases.set n (loaded (s.committed.ownerLease p) s.recs[n].gen)
        sealQ := s.sealQ ++ [⟨n, s.recs[n].gen⟩]
        pius := s.pius.set p (s.pius[p].answered 0x25 e) } := by
  simp [-Fin.getElem_fin, get_set, State.placeSeal, State.startRun, State.record, State.setPiu, State.loadLease,
    State.setLease, State.setRec, State.deselect, Piu.answered, leaseLength, Lease.ofLength, loaded, he]

/-! ### Unseal Chain (R59, R60) -/

theorem execUnsealChain_rise {s : State} {p : Port} {nb gb : Byte} {n : ChainNo} {l : Label}
    (h : Waits s p .unsealChain [nb, gb]) (hn : Names s nb gb n) (ho : s.recs[n].life.owner = some p)
    (hp : s.recs[n].life.phase = .sealing ∨ s.recs[n].life.phase = .sealed) (hl : s.recs[n].life.label = some l) :
    exec (.unsealChain p .rise) s =
      .next (((s.deselect p).unseal n p l).record p 0x26 ⟨.ok, s.recs[n].stateWord, w16 s.recs[n].length⟩) := by
  have hlabel : s.recs[n].life.label.getD ⟨0, 0⟩ = l := by rw [hl]; rfl
  have hphase : s.recs[n].life.phase ∈ ownerStates .unsealChain := by simpa [-Fin.getElem_fin, ownerStates] using hp
  have hrole : holdsRole .unsealChain s.recs[n].life p = true := holdsRole_of_owner (by decide) ho
  subst hlabel
  exact chainBeat_ok h (by decide) (chainCheck_owner (by decide) hn hrole ho hphase) _

/-- A PIU has no part in the cancelling of a seal. -/
theorem State.cancelIfSealing_setPiu (s : State) (n : ChainNo) (p : Port) (u : Piu) :
    (s.setPiu p u).cancelIfSealing n = (s.cancelIfSealing n).setPiu p u := by
  unfold State.cancelIfSealing State.cancelSeal
  rw [apply_ite (State.setPiu p u), apply_ite (State.setPiu p u)]
  rfl

/-- The record back in OPEN and its lease loaded, over the Seal Queue and the engine that the cancelling leaves. -/
theorem State.unseal_record {s : State} {n : ChainNo} {q : List ChainRef} {eng : Option SealRun}
    (h : s.cancelIfSealing n = { s with sealQ := q, sealEng := eng }) (p : Port) (l : Label) (e : Ending) :
    ((s.deselect p).unseal n p l).record p 0x26 e =
      { s with
        recs := s.recs.set n { s.recs[n] with life := .opened p l }
        leases := s.leases.set n (loaded (s.committed.ownerLease p) s.recs[n].gen)
        sealQ := q
        sealEng := eng
        pius := s.pius.set p (s.pius[p].answered 0x26 e) } := by
  have hcancel : (s.deselect p).cancelIfSealing n = ({ s with sealQ := q, sealEng := eng } : State).deselect p := by
    rw [← h]
    simpa [-Fin.getElem_fin, State.deselect] using s.cancelIfSealing_setPiu n p _
  unfold State.unseal
  rw [hcancel]
  simp [-Fin.getElem_fin, get_set, State.record, State.setPiu, State.loadLease, State.setLease, State.setRec,
    State.deselect, Piu.answered, leaseLength, Lease.ofLength, loaded]

/-! ### The line reads (R56) -/

/-- The bytes of a chain in two pieces. -/
theorem chainBytes_append (m : Memory) (blocks : List Nat) (k a b : Nat) :
    chainBytes m blocks k a ++ chainBytes m blocks (k + a) b = chainBytes m blocks k (a + b) := by
  simp [chainBytes, List.range_add, Nat.add_assoc]

/-- A register that held the CRC of some bytes holds, after more bytes, the CRC of all. -/
theorem crc_append (l l' : List Byte) : crc (l ++ l') = l'.foldl crcByte (crc l) := by
  simp [crc, List.foldl_append]

/-- The CRC of the bytes before an offset is carried to a later one. -/
theorem crc_chainBytes_carry (m : Memory) (blocks : List Nat) {next stop : Nat} (h : next ≤ stop) :
    (chainBytes m blocks next (stop - next)).foldl crcByte (crc (chainBytes m blocks 0 next)) =
      crc (chainBytes m blocks 0 stop) := by
  have hsplit := chainBytes_append m blocks 0 next (stop - next)
  rw [Nat.zero_add, Nat.add_sub_cancel' h] at hsplit
  rw [← hsplit, crc_append]

/-- An engine that is granted a line has not finished. -/
theorem not_finishing_of_granted {s : State} {run : SealRun} (he : s.sealEng = some run)
    (h : s.nextGrant = some .sealEngine) : run.finishing = false := by
  have hw : s.waiting .sealEngine = true := List.find?_some h
  simpa [State.waiting, he] using hw

theorem execSealLineRead_granted {s : State} {run : SealRun} (he : s.sealEng = some run)
    (h : s.nextGrant = some .sealEngine) :
    exec .sealLineRead s = .next { s with
      arbPos := .sealEngine
      sealEng := some (run.advance s.store s.recs[run.ref.num].blocks) } := by
  simp [-Fin.getElem_fin, exec, execSealLineRead, he, h, not_finishing_of_granted he h]

/-! ### The completion (R58) -/

/-- In another state or generation the completion changes nothing (R8). -/
theorem State.complete_drops {s : State} {run : SealRun}
    (h : s.recs[run.ref.num].life.phase ≠ .sealing ∨ s.recs[run.ref.num].gen ≠ run.ref.gen) : s.complete run = s := by
  unfold State.complete
  cases hl : s.recs[run.ref.num].life with
  | sealing o l =>
    have hg : s.recs[run.ref.num].gen ≠ run.ref.gen := h.resolve_left (by simp [-Fin.getElem_fin, hl, Life.phase])
    simp only [hl, hg, if_false]
  | _ => simp only [hl]

theorem execSealCompletion_raised {s : State} {run : SealRun} (he : s.sealEng = some run)
    (hf : run.finishing = true) :
    exec .sealCompletion s = .next ({ s.complete run with sealEng := none } : State).startRun := by
  simp [exec, execSealCompletion, he, hf]

/-- A record's change of state leaves every chain's length, so the next run starts as it would have. -/
theorem nextRun_set (recs : Vector ChainRec 64) (n : ChainNo) (l : Life) (q : List ChainRef) :
    nextRun (recs.set n { recs[n] with life := l }) q = nextRun recs q := by
  have hlen (m : ChainNo) : (recs.set n { recs[n] with life := l })[m].length = recs[m].length := by
    rw [get_set]
    split
    · next hm => subst hm; rfl
    · rfl
  simp only [nextRun, hlen]

/-! ### The check value (R57) -/

/-- One shift, by the bit shifted out of bit 15. -/
theorem crcShift_eq : crcShift = fun r : Word => if r.getLsbD 15 then (r <<< 1) ^^^ 0x1021 else r <<< 1 := rfl

/-- One more byte: combined into the upper eight bits, then eight shifts. -/
theorem crc_concat (l : List Byte) (b : Byte) :
    crc (l ++ [b]) = Nat.iterate crcShift 8 (crc l ^^^ (b.setWidth 16 <<< 8)) := by
  rw [crc_append]
  rfl

end Sys2Proof.Machine

namespace Sys2Proof.Proofs
open Machine

/-- Settles O30: the chain placed at an IDLE and at a running engine; the record unsealed that was SEALED, that waited,
and that was under the engine. -/
theorem sealAndUnseal : Obligations.SealAndUnseal := by
  intro s p nb gb n l hn
  refine ⟨fun h hl => ?_, fun h => ⟨fun k hl => ?_, fun hl hrun => ?_, fun run hl he hnum => ?_⟩⟩
  · rw [execSealChain_rise h hn hl]
    refine ⟨fun he hq => ?_, fun run he => ?_⟩
    · rw [State.placeSeal_idle he hq]
      simp [State.sealsAhead, he, hq]
      rfl
    · rw [State.placeSeal_busy he]
      simp [State.sealsAhead, he]
  · rw [execUnsealChain_rise (l := l) h hn (by rw [hl]; rfl) (.inr (by rw [hl]; rfl)) (by rw [hl]; rfl),
      State.unseal_record (State.cancelIfSealing_not (by simp [-Fin.getElem_fin, hl, Life.phase])),
      ChainRec.stateWord, hl]
    rfl
  · have hp : s.recs[n].life.phase = .sealing := by rw [hl]; rfl
    rw [execUnsealChain_rise (l := l) h hn (by rw [hl]; rfl) (.inl hp) (by rw [hl]; rfl),
      State.unseal_record (State.cancelIfSealing_queued hp hrun), ChainRec.stateWord, hp]
    rfl
  · have hp : s.recs[n].life.phase = .sealing := by rw [hl]; rfl
    rw [execUnsealChain_rise (l := l) h hn (by rw [hl]; rfl) (.inl hp) (by rw [hl]; rfl),
      State.unseal_record (State.cancelIfSealing_running hp he hnum), ChainRec.stateWord, hp]
    rfl

/-- Settles O31: the engine without a request reads nothing; a granted line carries the CRC to the new offset. -/
theorem sealLineRead : Obligations.SealLineRead := by
  refine ⟨fun s h => ?_, ?_⟩
  · cases he : s.sealEng with
    | none => simp [exec, execSealLineRead, he]
    | some run => simp [exec, execSealLineRead, he, h run he]
  · rintro s run blocks stop he hgrant rfl rfl
    refine ⟨execSealLineRead_granted he hgrant, fun hle hreg => ?_⟩
    rw [hreg]
    exact crc_chainBytes_carry _ _ (by omega)

/-- Settles O32: no completion raised, one that acts, one that is dropped. -/
theorem sealCompletion : Obligations.SealCompletion := by
  refine ⟨fun s h => ?_, ?_⟩
  · cases he : s.sealEng with
    | none => simp [exec, execSealCompletion, he]
    | some run => simp [exec, execSealCompletion, he, h run he]
  · rintro s run r he hf rfl
    rw [execSealCompletion_raised he hf]
    refine ⟨fun o l hl hg => ?_, fun hdrop => ?_⟩
    · rw [State.complete_acts hl hg, ← nextRun_set s.recs run.ref.num (.sealed o l run.reg)]
      rfl
    · rw [State.complete_drops hdrop]
      rfl

/-- Settles O33: the reference values by evaluation, the byte's step by its definition; equal bytes give equal check
values. -/
theorem checkValue : Obligations.CheckValue := by
  refine ⟨rfl, by decide, by decide +kernel, fun l b => crcShift_eq ▸ crc_concat l b, fun m m' blocks blocks' n h => ?_⟩
  have hbytes : chainBytes m blocks 0 n = chainBytes m' blocks' 0 n :=
    List.map_congr_left fun i hi => by simpa using h i (List.mem_range.mp hi)
  rw [hbytes]

end Sys2Proof.Proofs
end

section
/-! PROOFS. What the rows of the part's own agents do to the records, the leases, the queues, the flags and the settings:
one list of operations, beside the one for the rows of a port's link (`LinkEffect`). -/

namespace Sys2Proof.Machine

/-- What the Chain Table, LU, HU, NU, AU and SU hold, and the divider. -/
def State.units (s : State) :=
  (s.recs, s.leases, s.claimLease, s.divider, s.inqs, s.notqs, s.edges, s.enables, s.committed, s.claim)

/-- What a row on no port's link can do, with what it has found: an access to the store, a start and a clearing write
nothing that these units hold. -/
inductive PartEffect (s : State) : State → Prop where
  | keeps {t : State} : t.units = s.units → PartEffect s t
  | deviceReset (resetn : Bool) : PartEffect s (s.deviceReset resetn)
  | tick : s.tickDue = true → PartEffect s s.tick
  | count : s.ready = true → s.tickDue = false → PartEffect s { s with divider := s.divider + 1 }
  | complete {run : SealRun} : s.sealEng = some run → run.finishing = true →
      PartEffect s ({ s.complete run with sealEng := none } : State).startRun
  | expire {n : ChainNo} : s.leases[n] = .raised s.recs[n].gen → s.recs[n].life ≠ .vacant → PartEffect s (s.expire n)
  | dropExpiry {n : ChainNo} {g : Gen} : s.leases[n] = .raised g → PartEffect s (s.setLease n .none)
  | lapse : s.claimLease = .raised → PartEffect s s.lapse

theorem partEffect_idle (s : State) : Leaves (PartEffect s) (.next s) := (leaves_next _ _).mpr (.keeps rfl)

theorem execInitializationComplete_part (s : State) : Leaves (PartEffect s) (execInitializationComplete s) := by
  unfold execInitializationComplete
  split <;> exact (leaves_next _ _).mpr (.keeps rfl)

theorem execStagingLineWrite_part (p : Port) (s : State) : Leaves (PartEffect s) (execStagingLineWrite p s) := by
  unfold execStagingLineWrite
  split
  · exact partEffect_idle s
  split
  · simp
  · exact (leaves_next _ _).mpr (.keeps rfl)

theorem execStagingLineFill_part (p : Port) (s : State) : Leaves (PartEffect s) (execStagingLineFill p s) := by
  unfold execStagingLineFill
  split
  · exact partEffect_idle s
  split
  · simp
  · exact (leaves_next _ _).mpr (.keeps rfl)

theorem execSealLineRead_part (s : State) : Leaves (PartEffect s) (execSealLineRead s) := by
  unfold execSealLineRead
  split
  · split
    · exact partEffect_idle s
    split
    · simp
    · exact (leaves_next _ _).mpr (.keeps rfl)
  · exact partEffect_idle s

theorem execSealCompletion_part (s : State) : Leaves (PartEffect s) (execSealCompletion s) := by
  unfold execSealCompletion
  split
  · next he =>
    split
    · next hf => exact (leaves_next _ _).mpr (.complete he hf)
    · exact partEffect_idle s
  · exact partEffect_idle s

theorem execTick_part (s : State) : Leaves (PartEffect s) (execTick s) := by
  unfold execTick
  split
  · next hdue => exact (leaves_next _ _).mpr (.tick hdue)
  · exact partEffect_idle s

theorem execRefclkPeriod_part (s : State) : Leaves (PartEffect s) (execRefclkPeriod s) := by
  unfold execRefclkPeriod
  split
  · exact partEffect_idle s
  next hready =>
  split
  · next hdue => exact (leaves_next _ _).mpr (.tick hdue)
  · next hdue => exact (leaves_next _ _).mpr (.count (by simpa using hready) (by simpa using hdue))

theorem execChainLeaseExpiry_part (n : ChainNo) (s : State) : Leaves (PartEffect s) (execChainLeaseExpiry n s) := by
  unfold execChainLeaseExpiry
  split
  · next g hg =>
    split
    · next h =>
      obtain ⟨hgen, hlive⟩ : s.recs[n].gen = g ∧ s.recs[n].life ≠ .vacant := by
        simpa [-Fin.getElem_fin, phase_vacant] using h
      exact (leaves_next _ _).mpr (.expire (hgen ▸ hg) hlive)
    · exact (leaves_next _ _).mpr (.dropExpiry hg)
  all_goals exact partEffect_idle s

theorem execClaimLeaseExpiry_part (s : State) : Leaves (PartEffect s) (execClaimLeaseExpiry s) := by
  unfold execClaimLeaseExpiry
  split
  · next h => exact (leaves_next _ _).mpr (.lapse h)
  all_goals exact partEffect_idle s

theorem execClearingStart_part (s : State) : Leaves (PartEffect s) (execClearingStart s) := by
  unfold execClearingStart
  split <;> exact (leaves_next _ _).mpr (.keeps rfl)

theorem execClearLineWrite_part (s : State) : Leaves (PartEffect s) (execClearLineWrite s) := by
  unfold execClearLineWrite
  split
  · split
    · simp
    split
    · exact (leaves_next _ _).mpr (.keeps (by simp [State.units, State.fillLine]))
    · exact (leaves_next _ _).mpr (.keeps (by simp [State.units, State.completeClearing, State.fillLine]))
  · exact partEffect_idle s

/-- A row on no port's link does one of these operations. -/
theorem exec_partEffect {i : Instr} (hi : portOf i = none) (s : State) : Leaves (PartEffect s) (exec i s) := by
  cases i
  case powerOn | resetnAssertion => exact (leaves_next _ _).mpr (.deviceReset _)
  case resetnRelease => exact (leaves_next _ _).mpr (.keeps rfl)
  case initializationComplete => exact execInitializationComplete_part s
  case stagingLineWrite p => exact execStagingLineWrite_part p s
  case stagingLineFill p => exact execStagingLineFill_part p s
  case sealLineRead => exact execSealLineRead_part s
  case sealCompletion => exact execSealCompletion_part s
  case tick => exact execTick_part s
  case chainLeaseExpiry n => exact execChainLeaseExpiry_part n s
  case claimLeaseExpiry => exact execClaimLeaseExpiry_part s
  case clearingStart => exact execClearingStart_part s
  case clearLineWrite => exact execClearLineWrite_part s
  case refclkPeriod => exact execRefclkPeriod_part s
  all_goals cases hi

/-- A step is a row's, on a port's link or on none; an empty queue of commands idles. A property that the commands waiting
have no part in, and that every operation keeps, is kept by a step. -/
theorem step_keeps {P : State → Prop} (hpending : ∀ (s : State) (rest : List Instr), P s → P { s with pending := rest })
    (hlink : ∀ s t : State, P s → LinkEffect s t → P t) (hpart : ∀ s t : State, P s → PartEffect s t → P t) {s : State}
    (h : P s) : Leaves P (step s) := by
  unfold step
  split
  · simpa using h
  · next i rest _ =>
    intro t ht
    cases hi : portOf i with
    | some p => exact hlink _ t (hpending s rest h) (exec_linkEffect hi _ t ht)
    | none => exact hpart _ t (hpending s rest h) (exec_partEffect hi _ t ht)

end Sys2Proof.Machine
end

section
/-! PROOFS. The settings, the claim with its counter, and the divider, across every operation (R102, R113, R135 to R141). -/

namespace Sys2Proof.Machine

/-! ### What the invariant reads -/

/-- What SU holds, the claim's counter and the divider. -/
def State.settings (s : State) : Settings × Option Claim × ClaimLease × Nat :=
  (s.committed, s.claim, s.claimLease, s.divider)

/-- A claim and its counter: the staged copy in range, the counter present exactly while the claim is held and 1 to 32
while it runs (R113, R136). -/
def ClaimOk (claim : Option Claim) (lease : ClaimLease) : Prop :=
  (∀ cl, claim = some cl → cl.staged.inRange) ∧ (claim = none ↔ lease = .none) ∧
  ∀ c, lease = .running c → 1 ≤ c ∧ c ≤ 32

theorem settingsInv_iff (s : State) : SettingsInv s ↔
    (s.committed.inRange ∧ s.committed.lowMark < s.committed.highMark ∧ s.committed.enableMask ≠ 0) ∧
    ClaimOk s.claim s.claimLease ∧ s.divider < s.committed.tickRatio := by
  unfold SettingsInv ClaimOk
  tauto

theorem SettingsInv.congr {s t : State} (h : SettingsInv s) (ht : t.settings = s.settings) : SettingsInv t := by
  simp only [State.settings, Prod.mk.injEq] at ht
  obtain ⟨hcommitted, hclaim, hlease, hdivider⟩ := ht
  unfold SettingsInv
  rw [hcommitted, hclaim, hlease, hdivider]
  exact h

theorem settings_of_units {s t : State} (h : t.units = s.units) : t.settings = s.settings :=
  congrArg (fun u => (u.2.2.2.2.2.2.2.2.1, u.2.2.2.2.2.2.2.2.2, u.2.2.1, u.2.2.2.1)) h

/-- The claim and its counter are written, the rest stays. -/
theorem SettingsInv.setClaim {s t : State} (h : SettingsInv s) (hcommitted : t.committed = s.committed)
    (hdivider : t.divider = s.divider) (hclaim : ClaimOk t.claim t.claimLease) : SettingsInv t := by
  obtain ⟨hsettings, -, hratio⟩ := (settingsInv_iff s).mp h
  rw [settingsInv_iff, hcommitted, hdivider]
  exact ⟨hsettings, hclaim, hratio⟩

/-! ### The claim (R113, R136, R137, R139) -/

theorem claimOk_none : ClaimOk none .none := ⟨nofun, ⟨fun _ => rfl, fun _ => rfl⟩, nofun⟩

/-- A claim granted or written: the counter is loaded with 32. -/
theorem claimOk_loaded {cl : Claim} (h : cl.staged.inRange) : ClaimOk (some cl) (.running Config.claimTicks) := by
  refine ⟨fun _ e => Option.some.inj e ▸ h, ⟨nofun, nofun⟩, fun c e => ?_⟩
  cases e
  exact ⟨by decide, by decide⟩

/-- The tick counts down to 1 and then signals. -/
theorem ClaimOk.tick {claim : Option Claim} {lease : ClaimLease} (h : ClaimOk claim lease) :
    ClaimOk claim lease.tick := by
  obtain ⟨hstaged, hheld, hcount⟩ := h
  cases lease with
  | none => exact ⟨hstaged, hheld, hcount⟩
  | raised => exact ⟨hstaged, hheld, hcount⟩
  | running c =>
    obtain ⟨-, hc⟩ := hcount c rfl
    have hsome : claim ≠ none := fun e => nomatch hheld.mp e
    unfold ClaimLease.tick
    dsimp only
    split
    · exact ⟨hstaged, ⟨fun e => absurd e hsome, nofun⟩, nofun⟩
    · next hne =>
      refine ⟨hstaged, ⟨fun e => absurd e hsome, nofun⟩, fun c' e => ?_⟩
      cases e
      exact ⟨by omega, by omega⟩

/-- What the range check of Write Setting passes lies in the range of R135's table. -/
theorem legalSetting_of_fieldInRange {i : Fin 23} {v : Word} (h : fieldInRange i v = true) :
    legalSetting (i.val + 1) v.toNat = true := by
  revert h
  fin_cases i <;> simp [fieldInRange, legalSetting]

theorem Settings.inRange_set {c : Settings} {i : Fin 23} {v : Word} (h : c.inRange) (hv : fieldInRange i v = true) :
    ({ fields := c.fields.set i v } : Settings).inRange := fun j => by
  rw [get_set]
  split
  · next e => exact e ▸ legalSetting_of_fieldInRange hv
  · exact h j

theorem stagedOf_some {s : State} {p : Port} {staged : Settings} (h : s.stagedOf p = some staged) :
    s.claim = some ⟨p, staged⟩ := by
  unfold State.stagedOf at h
  split at h
  · next cl hcl =>
    split at h
    · next hp =>
      obtain rfl := Option.some.inj h
      subst hp
      exact hcl
    · cases h
  · cases h

theorem SettingsInv.staged {s : State} {p : Port} {staged : Settings} (h : SettingsInv s)
    (hs : s.stagedOf p = some staged) : staged.inRange := by
  obtain ⟨-, ⟨hstaged, -⟩, -⟩ := (settingsInv_iff s).mp h
  exact hstaged ⟨p, staged⟩ (stagedOf_some hs)

theorem SettingsInv.grantClaim {s : State} (h : SettingsInv s) (p : Port) : SettingsInv (s.grantClaim p) := by
  obtain ⟨⟨hrange, -⟩, -⟩ := (settingsInv_iff s).mp h
  exact h.setClaim rfl rfl (claimOk_loaded hrange)

theorem SettingsInv.writeStaged {s : State} {p : Port} {staged : Settings} {i : Fin 23} {v : Word} (h : SettingsInv s)
    (hs : s.stagedOf p = some staged) (hv : fieldInRange i v = true) : SettingsInv (s.writeStaged p staged i v) :=
  h.setClaim rfl rfl (claimOk_loaded (Settings.inRange_set (h.staged hs) hv))

theorem SettingsInv.endClaim {s : State} (h : SettingsInv s) : SettingsInv s.endClaim := h.setClaim rfl rfl claimOk_none

theorem SettingsInv.lapse {s : State} (h : SettingsInv s) : SettingsInv s.lapse := by
  unfold State.lapse
  split <;> exact h.endClaim.congr rfl

/-! ### Withdrawal and commit (R141, R149) -/

theorem State.withdrawChains_settings (s : State) (p : Port) (l : List ChainNo) :
    (l.foldl (State.withdrawFrom p) s).settings = s.settings :=
  State.withdraw_keeps State.settings p (fun _ _ => by simp [State.settings]) l s

/-- A withdrawn port's claim is over. -/
theorem SettingsInv.withdraw {s : State} (h : SettingsInv s) (p : Port) (res : ResultRec) :
    SettingsInv (s.withdraw p res) := by
  have hchains := h.congr (s.withdrawChains_settings p (s.withdrawOrder p))
  obtain ⟨-, hclaim, -⟩ := (settingsInv_iff _).mp hchains
  refine hchains.setClaim rfl rfl ?_
  simp only [State.withdraw, State.stripPort]
  split
  · exact claimOk_none
  · exact hclaim

/-- What a withdrawal keeps, the withdrawals of a commit keep. -/
theorem State.withdrawAll_keeps {α : Type} (f : State → α)
    (hf : ∀ (s : State) (p : Port) (res : ResultRec), f (s.withdraw p res) = f s) (m : PortSet) (s : State) :
    f (s.withdrawAll m) = f s := by
  unfold State.withdrawAll
  generalize s.portOrder m = l
  induction l generalizing s with
  | nil => rfl
  | cons q l ih => rw [List.foldl_cons, ih, hf]

theorem State.withdraw_committed (s : State) (p : Port) (res : ResultRec) :
    (s.withdraw p res).committed = s.committed :=
  State.withdraw_keeps State.committed p (fun _ _ => by simp) (s.withdrawOrder p) s

theorem State.withdraw_divider (s : State) (p : Port) (res : ResultRec) : (s.withdraw p res).divider = s.divider :=
  State.withdraw_keeps State.divider p (fun _ _ => by simp) (s.withdrawOrder p) s

theorem State.commit_committed (s : State) (p : Port) (staged : Settings) : (s.commit p staged).committed = staged := by
  have hkeeps : ((s.applySettings staged).withdrawAll (s.disables staged)).committed = staged :=
    State.withdrawAll_keeps State.committed State.withdraw_committed _ _
  simpa [State.commit, State.endClaim] using hkeeps

theorem State.commit_divider (s : State) (p : Port) (staged : Settings) :
    (s.commit p staged).divider = if staged.tickSelect = s.committed.tickSelect then s.divider else 0 := by
  have hkeeps : ((s.applySettings staged).withdrawAll (s.disables staged)).divider =
      if staged.tickSelect = s.committed.tickSelect then s.divider else 0 :=
    State.withdrawAll_keeps State.divider State.withdraw_divider _ _
  simpa [State.commit, State.endClaim] using hkeeps

theorem Settings.tickRatio_pos (c : Settings) : 0 < c.tickRatio := by
  unfold Settings.tickRatio
  split <;> decide

/-- What the validation of R140 passes. -/
theorem validate_none {s : State} {staged : Settings} (h : s.validate staged = none) :
    s.badDepth staged = none ∧ staged.lowMark < staged.highMark ∧ staged.enableMask ≠ 0 := by
  unfold State.validate at h
  split at h
  · cases h
  next hdepth =>
  split at h
  · cases h
  next hmarks =>
  split at h
  · cases h
  next hmask => exact ⟨hdepth, Nat.not_le.mp hmarks, hmask⟩

/-- The committed record is the staged copy, in range and validated; the claim ends, and a divider that counts in the same
ratio goes on. -/
theorem SettingsInv.commit {s : State} {p : Port} {staged : Settings} (h : SettingsInv s)
    (hs : s.stagedOf p = some staged) (hv : s.validate staged = none) : SettingsInv (s.commit p staged) := by
  obtain ⟨-, -, hratio⟩ := (settingsInv_iff s).mp h
  obtain ⟨-, hmarks, hmask⟩ := validate_none hv
  rw [settingsInv_iff, State.commit_committed, State.commit_divider]
  refine ⟨⟨h.staged hs, hmarks, hmask⟩, claimOk_none, ?_⟩
  split
  · next hsame =>
    have hsameRatio : staged.tickRatio = s.committed.tickRatio := by unfold Settings.tickRatio; rw [hsame]
    exact hsameRatio ▸ hratio
  · exact staged.tickRatio_pos

end Sys2Proof.Machine
end

section
/-! PROOFS. The inbound queues count their entries and the notice queues hold at most 8, across every operation (R69, R70,
R89). -/

namespace Sys2Proof.Machine

/-! ### One inbound queue (R70) -/

/-- An offset and its lap, one place further, count one more, modulo the laps. -/
theorem advance_counts {depth off : Nat} (lap : BitVec 8) (h : off < depth) :
    advance depth off < depth ∧
    (advanceLap depth off lap).toNat * depth + advance depth off ≡ lap.toNat * depth + off + 1 [MOD 256 * depth] := by
  unfold advance advanceLap
  split
  · next hlast =>
    have hoff : lap.toNat * depth + off + 1 = (lap.toNat + 1) * depth := by
      rw [Nat.succ_mul]
      omega
    have hlap : (lap + 1).toNat ≡ lap.toNat + 1 [MOD 256] := by
      rw [BitVec.toNat_add]
      exact Nat.mod_modEq _ _
    rw [hoff]
    exact ⟨by omega, hlap.mul_right' depth⟩
  · exact ⟨by omega, rfl⟩

theorem InQueue.counts_iff (depth : Nat) (q : InQueue) : q.counts depth ↔
    q.entries.length ≤ depth ∧ q.posted < depth ∧ q.taken < depth ∧
    q.takenLap.toNat * depth + q.taken + q.entries.length ≡ q.postedLap.toNat * depth + q.posted [MOD 256 * depth] :=
  Iff.rfl

theorem InQueue.counts_place {depth : Nat} {q : InQueue} (h : q.counts depth) (hroom : q.entries.length < depth)
    (e : Entry) : (q.place depth e).counts depth := by
  rw [InQueue.counts_iff] at h ⊢
  obtain ⟨-, hposted, htaken, hcount⟩ := h
  obtain ⟨hlt, hstep⟩ := advance_counts q.postedLap hposted
  refine ⟨by simpa [InQueue.place] using hroom, hlt, htaken, ?_⟩
  have hlen : (q.place depth e).entries.length = q.entries.length + 1 := by simp [InQueue.place]
  rw [hlen]
  exact (hcount.add_right 1).trans hstep.symm

theorem InQueue.counts_remove {depth : Nat} {q : InQueue} {e : Entry} (h : q.counts depth)
    (hhead : q.entries.head? = some e) : (q.remove depth).counts depth := by
  rw [InQueue.counts_iff] at h ⊢
  obtain ⟨hlen, hposted, htaken, hcount⟩ := h
  obtain ⟨hlt, hstep⟩ := advance_counts q.takenLap htaken
  obtain ⟨es, hes⟩ := List.head?_eq_some_iff.mp hhead
  rw [hes, List.length_cons] at hlen hcount
  have htail : (q.remove depth).entries.length = es.length := by simp [InQueue.remove, hes]
  rw [htail]
  refine ⟨by omega, hposted, hlt, (hstep.add_right es.length).trans ?_⟩
  rw [Nat.add_assoc _ 1, Nat.add_comm 1]
  exact hcount

theorem InQueue.counts_voidRef {depth : Nat} {q : InQueue} (h : q.counts depth) (r : ChainRef) :
    (q.voidRef r).counts depth := by
  simpa [InQueue.counts, InQueue.voidRef] using h

theorem InQueue.counts_reset {depth : Nat} (h : 0 < depth) : InQueue.reset.counts depth :=
  ⟨Nat.zero_le _, h, h, by simp [InQueue.reset]⟩

/-- An empty queue counts from 0 again under its new depth (R73). -/
theorem InQueue.counts_rewind {depth : Nat} {q : InQueue} (hempty : q.entries = []) (h : 0 < depth) :
    q.rewind.counts depth := by
  have hreset : q.rewind = InQueue.reset := by simp [InQueue.rewind, InQueue.reset, hempty]
  exact hreset ▸ InQueue.counts_reset h

/-! ### All queues -/

/-- R69 and R70 for the inbound queues at their committed depths, R89 for the notice queues. -/
def QueuesCount (s : State) : Prop := ∀ p : Port, s.inqs[p].counts (s.committed.depth p) ∧ s.notqs[p].length ≤ 8

theorem queuesInv_iff (s : State) : QueuesInv s ↔ SettingsInv s ∧ QueuesCount s := Iff.rfl

/-- What the invariant of the queues reads. -/
def State.queues (s : State) : Settings × Vector InQueue 4 × Vector (List Notice) 4 := (s.committed, s.inqs, s.notqs)

theorem QueuesCount.congr {s t : State} (h : QueuesCount s) (ht : t.queues = s.queues) : QueuesCount t := by
  simp only [State.queues, Prod.mk.injEq] at ht
  obtain ⟨hcommitted, hinqs, hnotqs⟩ := ht
  unfold QueuesCount
  rw [hcommitted, hinqs, hnotqs]
  exact h

theorem queues_of_units {s t : State} (h : t.units = s.units) : t.queues = s.queues :=
  congrArg (fun u => (u.2.2.2.2.2.2.2.2.1, u.2.2.2.2.1, u.2.2.2.2.2.1)) h

theorem QueuesCount.depth_pos {s : State} (h : QueuesCount s) (p : Port) : 0 < s.committed.depth p := by
  obtain ⟨⟨-, hposted, -⟩, -⟩ := h p
  exact Nat.zero_lt_of_lt hposted

/-- The inbound queues are written, the depths and the notice queues stay. -/
theorem QueuesCount.setInqs {s t : State} (h : QueuesCount s) (hcommitted : t.committed = s.committed)
    (hnotqs : t.notqs = s.notqs) (hinqs : ∀ p : Port, t.inqs[p].counts (s.committed.depth p)) : QueuesCount t :=
  fun p => ⟨hcommitted ▸ hinqs p, hnotqs ▸ (h p).2⟩

/-- One inbound queue is replaced. -/
theorem QueuesCount.setInq {s : State} {p : Port} {q : InQueue} (h : QueuesCount s)
    (hq : q.counts (s.committed.depth p)) : QueuesCount (s.setInq p q) :=
  h.setInqs rfl rfl fun p' => by
    rw [State.setInq_inqs, get_set]
    split
    · next e => exact e ▸ hq
    · exact (h p').1

/-- One notice queue is replaced. -/
theorem QueuesCount.setNotq {s t : State} {p : Port} {l : List Notice} (h : QueuesCount s)
    (hcommitted : t.committed = s.committed) (hinqs : t.inqs = s.inqs) (hnotqs : t.notqs = s.notqs.set p l)
    (hl : l.length ≤ 8) : QueuesCount t := fun p' => by
  rw [hcommitted, hinqs, hnotqs, get_set]
  refine ⟨(h p').1, ?_⟩
  split
  · exact hl
  · exact (h p').2

/-! ### Notices (R89, R90) -/

/-- A notice is taken only where fewer than 8 wait. -/
theorem QueuesCount.offer {s : State} (h : QueuesCount s) (p : Port) (m : Notice) : QueuesCount (s.offer p m) := by
  refine h.setNotq rfl rfl rfl ?_
  split
  · next hroom =>
    simp only [State.admits, Bool.and_eq_true, decide_eq_true_eq] at hroom
    rw [List.length_append]
    exact hroom.2
  · exact (h p).2

theorem QueuesCount.dropNotice {s : State} (h : QueuesCount s) (p : Port) :
    QueuesCount (s.setNotq p s.notqs[p].tail) :=
  h.setNotq rfl rfl rfl ((List.length_tail ▸ Nat.sub_le _ _).trans (h p).2)

theorem QueuesCount.expiryNotices {s : State} (h : QueuesCount s) (n : ChainNo) : QueuesCount (s.expiryNotices n) := by
  have hholders (m : Notice) (l : List Port) {t : State} (ht : QueuesCount t) :
      QueuesCount (l.foldl (fun t p => t.offer p m) t) := by
    induction l generalizing t with
    | nil => exact ht
    | cons p l ih => exact ih (ht.offer p m)
  unfold State.expiryNotices
  dsimp only
  split
  · exact h
  · exact h.offer _ _
  · exact h.offer _ _
  · exact h.offer _ _
  · exact hholders _ _ (h.offer _ _)

/-! ### Vacate, departure, expiry, completion -/

/-- The entries for the chain become void where they stand (R72). -/
theorem QueuesCount.voidEntries {s t : State} {r : ChainRef} (h : QueuesCount s) (hcommitted : t.committed = s.committed)
    (hnotqs : t.notqs = s.notqs) (hinqs : t.inqs = s.inqs.map (InQueue.voidRef r)) : QueuesCount t :=
  h.setInqs hcommitted hnotqs fun p => by
    have hp : t.inqs[p] = (s.inqs[p]).voidRef r := by rw [hinqs]; simp
    exact hp ▸ InQueue.counts_voidRef (h p).1 r

theorem QueuesCount.vacate {s : State} (h : QueuesCount s) (n : ChainNo) : QueuesCount (s.vacate n) :=
  h.voidEntries (by simp) (by simp) (s.vacate_inqs n)

theorem QueuesCount.depart {s : State} (h : QueuesCount s) (p : Port) (how : Departure) (n : ChainNo) :
    QueuesCount (s.depart p how n) := by
  unfold State.depart
  split
  · next d l k _ =>
    have hleft : QueuesCount (s.setRec n { s.recs[n] with life := .delivering (d.leave p how) l k }) := h.congr rfl
    dsimp only
    split
    · exact (hleft.offer _ _).vacate n
    · exact hleft
  all_goals exact h

theorem QueuesCount.expire {s : State} (h : QueuesCount s) (n : ChainNo) : QueuesCount (s.expire n) :=
  (h.expiryNotices n).vacate n

theorem QueuesCount.complete {s : State} (h : QueuesCount s) (run : SealRun) : QueuesCount (s.complete run) := by
  unfold State.complete
  dsimp only
  split
  · next o l _ =>
    split
    · have hsealed : QueuesCount (s.setRec run.ref.num
          { s.recs[run.ref.num] with life := .sealed o l run.reg }) := h.congr rfl
      exact hsealed.offer _ _
    · exact h
  all_goals exact h

/-! ### Hand, take, release, adopt, recall -/

theorem mem_ports (q : Port) : q ∈ ports := by revert q; decide

/-- Check 3 of R65 has found room in every destination's queue. -/
theorem firstFull_none {s : State} {dests : PortSet} (h : s.firstFull dests = none) {q : Port}
    (hq : inSet dests q = true) : s.inqs[q].entries.length < s.committed.depth q := by
  have hnone := List.find?_eq_none.mp h q (mem_ports q)
  simpa [-Fin.getElem_fin, hq] using hnone

theorem QueuesCount.placeEntries {s : State} {dests : PortSet} (h : QueuesCount s)
    (hroom : ∀ q, inSet dests q = true → s.inqs[q].entries.length < s.committed.depth q) (e : Entry) :
    QueuesCount (s.placeEntries dests e) :=
  h.setInqs rfl rfl fun q => by
    have hq : (s.placeEntries dests e).inqs[q] =
        if inSet dests q then s.inqs[q].place (s.committed.depth q) e else s.inqs[q] := by simp [State.placeEntries]
    rw [hq]
    split
    · next hin => exact InQueue.counts_place (h q).1 (hroom q hin) e
    · exact (h q).1

theorem QueuesCount.handChain {s : State} (h : QueuesCount s) (p : Port) (n : ChainNo) (mask : Byte) :
    QueuesCount (handChain p n mask s).1 := by
  unfold Machine.handChain
  dsimp only
  split
  · exact h
  split
  · exact h
  split
  · exact h
  next hfull =>
  have hrecord (r : ChainRec) : QueuesCount ((s.setRec n r).loadLease n) := h.congr rfl
  exact (hrecord _).placeEntries (fun q hq => firstFull_none hfull hq) _

/-- A take writes its own queue; the record and its lease are not the queues'. -/
theorem State.takeLive_queues (s : State) (p : Port) (ref : ChainRef) : (s.takeLive p ref).queues = s.queues := by
  unfold State.takeLive
  dsimp only
  split
  · split <;> rfl
  all_goals rfl

theorem QueuesCount.takeInbound {s : State} (h : QueuesCount s) (p : Port) (b : Body) :
    QueuesCount (takeInbound p b s).1 := by
  unfold Machine.takeInbound
  split
  · split
    · exact h
    split
    · next e hhead =>
      have htaken : QueuesCount (s.setInq p (s.inqs[p].remove (s.committed.depth p))) :=
        h.setInq (InQueue.counts_remove (h p).1 hhead)
      unfold takeHead
      dsimp only
      split
      · exact htaken
      · exact htaken.congr (State.takeLive_queues _ p e.ref)
    · exact h
  all_goals exact h

theorem QueuesCount.releaseChain {s : State} (h : QueuesCount s) (p : Port) (n : ChainNo) (x : Byte) :
    QueuesCount (releaseChain p n x s).1 := by
  unfold Machine.releaseChain State.releaseBy
  split
  · exact h
  · next how _ _ _ =>
    dsimp only
    split
    · exact h.depart p how n
    · exact (h.depart p how n).congr rfl
  · exact h

theorem QueuesCount.adoptChain {s : State} (h : QueuesCount s) (p : Port) (n : ChainNo) :
    QueuesCount (adoptChain p n s).1 := by
  unfold Machine.adoptChain
  split
  · next d l k _ =>
    repeat' split
    case isFalse.isFalse.isFalse.isFalse =>
      exact (h.offer d.origin ((d.leave p .accepted).consumed ⟨n, s.recs[n].gen⟩ l.tag)).congr
        (by simp [State.adopt, State.queues])
    all_goals exact h
  all_goals exact h

theorem QueuesCount.recallChain {s : State} (h : QueuesCount s) (n : ChainNo) : QueuesCount (recallChain n s).1 := by
  unfold Machine.recallChain
  split
  · split
    · exact h
    · exact h.voidEntries rfl rfl rfl
  all_goals exact h

/-! ### Withdrawal and commit (R73, R141, R149) -/

theorem QueuesCount.withdraw {s : State} (h : QueuesCount s) (p : Port) (res : ResultRec) :
    QueuesCount (s.withdraw p res) := by
  have hchains : QueuesCount ((s.withdrawOrder p).foldl (State.withdrawFrom p) s) := by
    generalize s.withdrawOrder p = l
    induction l generalizing s with
    | nil => exact h
    | cons n l ih =>
      refine ih ?_
      unfold State.withdrawFrom
      split
      · exact h.vacate n
      · exact h.depart p _ n
  have hinbound := hchains.setInq (p := p) (InQueue.counts_reset (hchains.depth_pos p))
  exact hinbound.setNotq (p := p) (l := []) rfl rfl rfl (Nat.zero_le _)

theorem QueuesCount.withdrawAll {s : State} (h : QueuesCount s) (m : PortSet) : QueuesCount (s.withdrawAll m) := by
  unfold State.withdrawAll
  generalize s.portOrder m = l
  induction l generalizing s with
  | nil => exact h
  | cons q l ih => exact ih (h.withdraw q disabledResult)

/-- The validation has found every queue empty whose depth changes (R140). -/
theorem badDepth_none {s : State} {staged : Settings} (h : s.badDepth staged = none) {q : Port}
    (hq : staged.depth q ≠ s.committed.depth q) : s.inqs[q].entries = [] := by
  have hnone := List.find?_eq_none.mp h q (mem_ports q)
  simpa [-Fin.getElem_fin, hq] using hnone

theorem Settings.depth_pos {c : Settings} (h : c.inRange) (p : Port) : 0 < c.depth p := by
  have hp := p.isLt
  have hlegal := h ⟨8 + p.val, by omega⟩
  have hdepth : c.fields[(⟨8 + p.val, by omega⟩ : Fin 23)].toNat = c.depth p := rfl
  rw [hdepth] at hlegal
  by_contra hzero
  obtain hzero : c.depth p = 0 := by omega
  simp [legalSetting, hzero] at hlegal
  omega

theorem QueuesCount.applySettings {s : State} {staged : Settings} (h : QueuesCount s) (hrange : staged.inRange)
    (hdepth : s.badDepth staged = none) : QueuesCount (s.applySettings staged) := fun q => by
  have hq : (s.applySettings staged).inqs[q] =
      if staged.depth q = s.committed.depth q then s.inqs[q] else s.inqs[q].rewind := by simp [State.applySettings]
  refine ⟨?_, (h q).2⟩
  rw [hq]
  show InQueue.counts (staged.depth q) _
  split
  · next hsame => exact hsame ▸ (h q).1
  · next hne => exact InQueue.counts_rewind (badDepth_none hdepth hne) (Settings.depth_pos hrange q)

/-- The ports spared keep notice queues that held at most 8. -/
theorem QueuesCount.sparing {s t : State} (hs : QueuesCount s) (ht : QueuesCount t) (m : PortSet) :
    QueuesCount (s.sparing m t) := fun q => by
  have hq : (s.sparing m t).notqs[q] = if inSet m q then s.notqs[q] else t.notqs[q] := by simp [State.sparing]
  refine ⟨(ht q).1, ?_⟩
  rw [hq]
  split
  · exact (hs q).2
  · exact (ht q).2

theorem QueuesCount.commit {s : State} {p : Port} {staged : Settings} (h : QueuesCount s) (hrange : staged.inRange)
    (hv : s.validate staged = none) : QueuesCount (s.commit p staged) := by
  obtain ⟨hdepth, -, -⟩ := validate_none hv
  have hwithdrawn := (h.applySettings hrange hdepth).withdrawAll (s.disables staged)
  exact (h.sparing hwithdrawn (s.enablesAnew staged)).congr rfl

end Sys2Proof.Machine
end

section
/-! PROOFS. The settings and the queues across every row, and across a step (R69, R70, R89, R135, R136). -/

namespace Sys2Proof.Machine

/-! ### Operations that leave the settings, the queues, or both -/

/-- Growth takes blocks from the Free List and writes a record. -/
theorem extendChain_units (p : Port) (n : ChainNo) (count : Word) (s : State) :
    (extendChain p n count s).1.settings = s.settings ∧ (extendChain p n count s).1.queues = s.queues := by
  obtain e | ⟨len, -, -, ⟨-, e⟩ | ⟨bs, t, halloc, -, e⟩⟩ := extendChain_cases p n count s <;> rw [e]
  · exact ⟨rfl, rfl⟩
  · exact ⟨rfl, rfl⟩
  · obtain ⟨-, -, rfl⟩ := allocate_some halloc
    exact ⟨rfl, rfl⟩

theorem appendByte_units (p : Port) (st : Stream) (x : Byte) (s : State) :
    (s.appendByte p st x).settings = s.settings ∧ (s.appendByte p st x).queues = s.queues := by
  obtain ⟨why, e⟩ | ⟨-, e⟩ | ⟨-, -, bs, t, halloc, e⟩ := appendByte_cases p st x s <;> rw [e]
  · exact ⟨rfl, rfl⟩
  · exact ⟨rfl, rfl⟩
  · obtain ⟨-, -, rfl⟩ := allocate_some halloc
    exact ⟨rfl, rfl⟩

theorem unseal_units (s : State) (n : ChainNo) (p : Port) (l : Label) :
    (s.unseal n p l).settings = s.settings ∧ (s.unseal n p l).queues = s.queues := by
  simp [State.unseal, State.settings, State.queues]

theorem State.vacate_settings (s : State) (n : ChainNo) : (s.vacate n).settings = s.settings := by
  simp [State.settings]

theorem handChain_settings (p : Port) (n : ChainNo) (mask : Byte) (s : State) :
    (handChain p n mask s).1.settings = s.settings := by
  unfold handChain
  dsimp only
  split
  · rfl
  split
  · rfl
  split <;> rfl

theorem State.takeLive_settings (s : State) (p : Port) (ref : ChainRef) : (s.takeLive p ref).settings = s.settings := by
  unfold State.takeLive
  dsimp only
  split
  · split <;> rfl
  all_goals rfl

theorem takeInbound_settings (p : Port) (b : Body) (s : State) : (takeInbound p b s).1.settings = s.settings := by
  unfold takeInbound
  split
  · split
    · rfl
    split
    · unfold takeHead
      dsimp only
      split
      · rfl
      · exact State.takeLive_settings _ p _
    · rfl
  all_goals rfl

theorem releaseChain_settings (p : Port) (n : ChainNo) (x : Byte) (s : State) :
    (releaseChain p n x s).1.settings = s.settings := by
  have hdepart (how : Departure) : (s.depart p how n).settings = s.settings := by simp [State.settings]
  unfold releaseChain State.releaseBy
  split
  · rfl
  · dsimp only
    split <;> exact hdepart _
  · rfl

theorem adoptChain_settings (p : Port) (n : ChainNo) (s : State) : (adoptChain p n s).1.settings = s.settings := by
  unfold adoptChain
  split
  · repeat' split
    case isFalse.isFalse.isFalse.isFalse => simp [State.adopt, State.settings]
    all_goals rfl
  all_goals rfl

theorem recallChain_settings (n : ChainNo) (s : State) : (recallChain n s).1.settings = s.settings := by
  unfold recallChain
  split
  · split <;> rfl
  all_goals rfl

theorem State.complete_settings (s : State) (run : SealRun) : (s.complete run).settings = s.settings := by
  unfold State.complete
  dsimp only
  split
  · split <;> rfl
  all_goals rfl

/-! ### The rows of a port's link -/

theorem SettingsInv.linkEffect {s t : State} (h : SettingsInv s) (ht : LinkEffect s t) : SettingsInv t := by
  induction ht with
  | nothing => exact h
  | extendChain count _ _ ih => exact ih.congr (extendChain_units _ _ count _).1
  | appendByte p st x _ ih => exact ih.congr (appendByte_units p st x _).1
  | unsealChain l _ _ ih => exact ih.congr (unseal_units _ _ _ l).1
  | vacate _ _ ih => exact ih.congr (State.vacate_settings _ _)
  | handChain mask _ _ ih => exact ih.congr (handChain_settings _ _ mask _)
  | takeInbound p b _ ih => exact ih.congr (takeInbound_settings p b _)
  | releaseChain x _ _ ih => exact ih.congr (releaseChain_settings _ _ x _)
  | adoptChain _ _ ih => exact ih.congr (adoptChain_settings _ _ _)
  | recallChain _ _ ih => exact ih.congr (recallChain_settings _ _)
  | grantClaim p _ ih => exact ih.grantClaim p
  | writeStaged _ hstaged hrange ih => exact ih.writeStaged hstaged hrange
  | endClaim _ ih => exact ih.endClaim
  | commit _ hstaged hvalid ih => exact ih.commit hstaged hvalid
  | withdraw p res _ ih => exact ih.withdraw p res
  | setPiu | raise | loadLease | openAt | sealChain | dropNotice | writeEnables | clearEdges =>
    next ih => exact ih.congr rfl

/-- A commit's staged copy is in range, by the invariant of the settings. -/
theorem QueuesCount.linkEffect {s t : State} (h : QueuesCount s) (hs : SettingsInv s) (ht : LinkEffect s t) :
    QueuesCount t := by
  induction ht with
  | nothing => exact h
  | extendChain count _ _ ih => exact ih.congr (extendChain_units _ _ count _).2
  | appendByte p st x _ ih => exact ih.congr (appendByte_units p st x _).2
  | unsealChain l _ _ ih => exact ih.congr (unseal_units _ _ _ l).2
  | vacate _ _ ih => exact ih.vacate _
  | handChain mask _ _ ih => exact ih.handChain _ _ mask
  | takeInbound p b _ ih => exact ih.takeInbound p b
  | releaseChain x _ _ ih => exact ih.releaseChain _ _ x
  | adoptChain _ _ ih => exact ih.adoptChain _ _
  | recallChain _ _ ih => exact ih.recallChain _
  | dropNotice p _ ih => exact ih.dropNotice p
  | commit hlink hstaged hvalid ih => exact ih.commit ((hs.linkEffect hlink).staged hstaged) hvalid
  | withdraw p res _ ih => exact ih.withdraw p res
  | setPiu | raise | loadLease | openAt | sealChain | writeEnables | clearEdges | grantClaim | writeStaged | endClaim =>
    next ih => exact ih.congr rfl

/-! ### The part's own rows -/

theorem SettingsInv.deviceReset (s : State) (resetn : Bool) : SettingsInv (s.deviceReset resetn) :=
  settingsInv_reset.congr rfl

/-- The divider counts below its ratio and returns to 0 at the tick. -/
theorem SettingsInv.partEffect {s t : State} (h : SettingsInv s) (ht : PartEffect s t) : SettingsInv t := by
  obtain ⟨hcommitted, hclaim, -⟩ := (settingsInv_iff s).mp h
  cases ht with
  | keeps ht => exact h.congr (settings_of_units ht)
  | deviceReset resetn => exact .deviceReset s resetn
  | tick => exact (settingsInv_iff _).mpr ⟨hcommitted, hclaim.tick, s.committed.tickRatio_pos⟩
  | count hready hdue =>
    have hbelow : s.divider + 1 < s.committed.tickRatio := by simpa [State.tickDue, hready] using hdue
    exact (settingsInv_iff _).mpr ⟨hcommitted, hclaim, hbelow⟩
  | @complete run => exact h.congr (s.complete_settings run)
  | expire => exact h.congr (by simp [State.settings])
  | dropExpiry => exact h.congr rfl
  | lapse => exact h.lapse

theorem QueuesCount.lapse {s : State} (h : QueuesCount s) : QueuesCount s.lapse := by
  have hend : QueuesCount s.endClaim := h.congr rfl
  unfold State.lapse
  split
  · exact hend.offer _ _
  · exact hend

theorem QueuesCount.partEffect {s t : State} (h : QueuesCount s) (ht : PartEffect s t) : QueuesCount t := by
  cases ht with
  | keeps ht => exact h.congr (queues_of_units ht)
  | deviceReset resetn => exact QueuesCount.congr queuesInv_reset.2 rfl
  | @complete run => exact (h.complete run).congr rfl
  | expire => exact h.expire _
  | lapse => exact h.lapse
  | tick | count | dropExpiry => exact h.congr rfl

/-! ### A step -/

theorem step_queues {s : State} (h : QueuesInv s) : Leaves QueuesInv (step s) := by
  refine step_keeps (fun s rest h => ?_) (fun s t h ht => ?_) (fun s t h ht => ?_) h <;>
    obtain ⟨hsettings, hqueues⟩ := (queuesInv_iff s).mp h
  · exact ⟨hsettings.congr rfl, hqueues.congr rfl⟩
  · exact ⟨hsettings.linkEffect ht, hqueues.linkEffect hsettings ht⟩
  · exact ⟨hsettings.partEffect ht, hqueues.partEffect ht⟩

end Sys2Proof.Machine

namespace Sys2Proof.Proofs
open Machine

/-- Settles O58: an entry placed or removed moves one offset by one place, a queue is placed into only where it has room,
and a depth changes under an empty queue alone. -/
theorem queueCountersAgree : Obligations.QueueCountersAgree :=
  fun _ t ht h => step_queues h t ht

end Sys2Proof.Proofs
end

section
/-! PROOFS. Hand Chain: its checks by the lowest port that fails them, and the delivery (R65 to R67, R70). -/

namespace Sys2Proof.Machine

/-! ### What an action writes at its select rise -/

/-- The outcome is recorded on the port just deselected, whatever else the action has written. -/
theorem State.record_deselected {s t : State} {p : Port} (ht : t.pius = (s.deselect p).pius) (c : Byte) (e : Ending) :
    t.record p c e = { t with pius := s.pius.set p (s.pius[p].answered c e) } := by
  simp [State.record, State.setPiu, ht, Piu.closed, Piu.answered]

/-- A record is written and its lease loaded by the state it now has (R105). -/
theorem State.setRec_loadLease (s : State) (n : ChainNo) (r : ChainRec) :
    (s.setRec n r).loadLease n =
      { s with recs := s.recs.set n r, leases := s.leases.set n (loadedFor s.committed r.gen r.life) } := by
  have hloaded : Lease.ofLength (leaseLength s.committed r.life) r.gen = loadedFor s.committed r.gen r.life := by
    cases r.life <;> rfl
  rw [← hloaded]
  simp [State.loadLease, State.setLease, State.setRec]

/-! ### Ports and places -/

theorem ports_eq_finRange : ports = List.finRange 4 := by decide

/-- The lowest-numbered port of which a test holds. -/
theorem find?_ports_some {f : Port → Bool} {q : Port} (hq : f q = true) (hlow : ∀ q' : Port, q' < q → f q' = false) :
    ports.find? f = some q := by
  rw [ports_eq_finRange, List.find?_eq_some_iff_getElem]
  refine ⟨hq, q.val, by simp, by simp, fun j hj => ?_⟩
  simpa using hlow ⟨j, by omega⟩ hj

theorem find?_ports_none {f : Port → Bool} (h : ∀ q : Port, f q = false) : ports.find? f = none :=
  List.find?_eq_none.mpr fun q _ => by simp [h q]

theorem nextPlace_eq (depth off : Nat) (lap : BitVec 8) :
    nextPlace depth off lap = (advance depth off, advanceLap depth off lap) := by
  unfold nextPlace advance advanceLap
  split <;> rfl

/-! ### The checks (R65) -/

theorem maskInvalid_iff {p : Port} {mask : Byte} :
    maskInvalid p mask = true ↔ mask = 0 ∨ 16 ≤ mask.toNat ∨ inSet (mask.setWidth 4) p = true := by
  simp [maskInvalid, or_assoc]

theorem maskValid {p : Port} {mask : Byte} (hne : mask ≠ 0) (hlt : mask.toNat < 16)
    (hp : inSet (mask.setWidth 4) p = false) : maskInvalid p mask = false := by
  rw [← Bool.not_eq_true, maskInvalid_iff]
  rintro (h | h | h)
  · exact hne h
  · omega
  · simp [hp] at h

theorem firstDisabled_some {s : State} {dests : PortSet} {q : Port} (hq : inSet dests q = true)
    (hd : s.isEnabled q = false) (hlow : ∀ q' : Port, q' < q → inSet dests q' = true → s.isEnabled q' = true) :
    s.firstDisabled dests = some q :=
  find?_ports_some (by simp [hq, hd]) fun q' hlt => by
    cases hq' : inSet dests q'
    · rfl
    · simp [hlow q' hlt hq']

theorem firstDisabled_none {s : State} {dests : PortSet} (h : ∀ q : Port, inSet dests q = true → s.isEnabled q = true) :
    s.firstDisabled dests = none :=
  find?_ports_none fun q => by
    cases hq : inSet dests q
    · rfl
    · simp [h q hq]

theorem firstFull_some {s : State} {dests : PortSet} {q : Port} (hq : inSet dests q = true)
    (hf : s.committed.depth q ≤ s.inqs[q].entries.length)
    (hlow : ∀ q' : Port, q' < q → inSet dests q' = true → s.inqs[q'].entries.length < s.committed.depth q') :
    s.firstFull dests = some q :=
  find?_ports_some (by simp [-Fin.getElem_fin, hq, hf]) fun q' hlt => by
    cases hq' : inSet dests q'
    · rfl
    · simp [-Fin.getElem_fin, hlow q' hlt hq']

theorem firstFull_eq_none {s : State} {dests : PortSet}
    (h : ∀ q : Port, inSet dests q = true → s.inqs[q].entries.length < s.committed.depth q) :
    s.firstFull dests = none :=
  find?_ports_none fun q => by
    cases hq : inSet dests q
    · rfl
    · simp [-Fin.getElem_fin, h q hq]

/-! ### The branches of Hand Chain -/

section Branches
variable {s : State} {p : Port} {n : ChainNo} {mask : Byte}

theorem handChain_destInvalid (h : maskInvalid p mask = true) :
    handChain p n mask s = (s, ⟨.destInvalid, mask.setWidth 16, 0⟩) :=
  if_pos h

theorem handChain_destDisabled {q : Port} (hmask : maskInvalid p mask = false)
    (h : s.firstDisabled (mask.setWidth 4) = some q) :
    handChain p n mask s = (s, ⟨.destDisabled, w16 q.val, s.committed.enableMask.setWidth 16⟩) := by
  simp only [handChain, hmask, h, Bool.false_eq_true, if_false]

theorem handChain_queueFull {q : Port} (hmask : maskInvalid p mask = false)
    (henabled : s.firstDisabled (mask.setWidth 4) = none) (h : s.firstFull (mask.setWidth 4) = some q) :
    handChain p n mask s = (s, ⟨.queueFull, w16 q.val, w16 (s.committed.depth q)⟩) := by
  simp only [handChain, hmask, henabled, h, Bool.false_eq_true, if_false]

theorem handChain_ok {l : Label} {k : Word} (hmask : maskInvalid p mask = false)
    (henabled : s.firstDisabled (mask.setWidth 4) = none) (hroom : s.firstFull (mask.setWidth 4) = none)
    (hl : s.recs[n].life = .sealed p l k) :
    handChain p n mask s =
      (s.hand n p (mask.setWidth 4) l k, ⟨.ok, w16 (card (mask.setWidth 4)), mask.setWidth 16⟩) := by
  have hlabel : s.recs[n].life.label.getD ⟨0, 0⟩ = l := by rw [hl]; rfl
  have hcheck : s.recs[n].life.check.getD 0 = k := by rw [hl]; rfl
  simp only [handChain, hmask, henabled, hroom, hlabel, hcheck, Bool.false_eq_true, if_false]

end Branches

/-- A command that R12 accepts in SEALED, from the owner of a SEALED record. -/
theorem chainCheck_sealed {s : State} {c : Cmd} {p : Port} {nb gb : Byte} {rest : List Byte} {n : ChainNo} {l : Label}
    {k : Word} (hc : c ∈ chainCommands) (hsealed : .sealed ∈ ownerStates c) (h : Names s nb gb n)
    (hl : s.recs[n].life = .sealed p l k) : s.chainCheck c p (nb :: gb :: rest) = .ok n := by
  have ho : s.recs[n].life.owner = some p := by rw [hl]; rfl
  exact chainCheck_owner hc h (holdsRole_of_owner (List.ne_nil_of_mem hsealed) ho) ho (by rw [hl]; exact hsealed)

theorem execHandChain_rise {s : State} {p : Port} {nb gb mask : Byte} {n : ChainNo} {l : Label} {k : Word}
    (h : Waits s p .handChain [nb, gb, mask]) (hn : Names s nb gb n) (hl : s.recs[n].life = .sealed p l k) :
    exec (.handChain p .rise) s =
      .next ((handChain p n mask (s.deselect p)).1.record p 0x30 (handChain p n mask (s.deselect p)).2) :=
  chainBeat_ok h (by decide) (chainCheck_sealed (by decide) (by decide) hn hl) _

/-- The record, the lease and the queues of a chain just handed (R66, R67). -/
theorem State.hand_record (s : State) (n : ChainNo) (p : Port) (dests : PortSet) (l : Label) (k : Word) (e : Ending) :
    ((s.deselect p).hand n p dests l k).record p 0x30 e =
      { s with
        recs := s.recs.set n
          { s.recs[n] with
            life := .delivering
              { origin := p, dests := dests, pend := dests, hold := 0, accepted := 0, refused := 0, withdrawn := 0 }
              l k }
        leases := s.leases.set n (loaded s.committed.deliveryLease s.recs[n].gen)
        inqs := Vector.ofFn (fun q : Port =>
          if inSet dests q then
            { s.inqs[q] with
              entries := s.inqs[q].entries ++
                [{ ref := ⟨n, s.recs[n].gen⟩, origin := p, hops := l.hops, tag := l.tag, length := s.recs[n].length,
                   void := false }]
              posted := (nextPlace (s.committed.depth q) s.inqs[q].posted s.inqs[q].postedLap).1
              postedLap := (nextPlace (s.committed.depth q) s.inqs[q].posted s.inqs[q].postedLap).2 }
          else s.inqs[q])
        pius := s.pius.set p (s.pius[p].answered 0x30 e) } := by
  rw [State.record_deselected (s := s), State.hand, State.setRec_loadLease]
  · simp only [nextPlace_eq]
    rfl
  · rfl

end Sys2Proof.Machine

namespace Sys2Proof.Proofs
open Machine

/-- Settles O34: the three checks pass, and the delivery is the record's, the lease's and the destinations' entries. -/
theorem handChainDelivers : Obligations.HandChainDelivers := by
  rintro s p nb gb mask n l k dests h hn hl rfl hne hlt hp hdests
  rw [execHandChain_rise h hn hl,
    handChain_ok (s := s.deselect p) (maskValid hne hlt hp) (firstDisabled_none fun q hq => (hdests q hq).1)
      (firstFull_eq_none fun q hq => (hdests q hq).2) hl,
    State.hand_record]

/-- Settles O35: each check by the lowest port that fails it. -/
theorem handChainRefused : Obligations.HandChainRefused := by
  rintro s p nb gb mask n l k dests h hn hl rfl
  rw [execHandChain_rise h hn hl]
  refine ⟨fun hmask => ?_, fun q hne hlt hp hq hd hlow => ?_, fun q hne hlt hp hen hq hf hlow => ?_⟩
  · rw [handChain_destInvalid (maskInvalid_iff.mpr hmask), State.deselect_record]
  · rw [handChain_destDisabled (s := s.deselect p) (maskValid hne hlt hp) (firstDisabled_some hq hd hlow),
      State.deselect_record]
    rfl
  · rw [handChain_queueFull (s := s.deselect p) (maskValid hne hlt hp) (firstDisabled_none hen)
      (firstFull_some hq hf hlow), State.deselect_record]
    rfl

end Sys2Proof.Proofs
end

section
/-! PROOFS. Take Inbound: the fixed entry and its bytes, and the take decided at select rise (R75 to R77). -/

namespace Sys2Proof.Machine

/-! ### The course of a take (R156) -/

section Course
variable {c : Cmd} {p : Port} {s : State} (fixed : State → Body) (decide : Body → State → State × Ending)

/-- The record is fixed when the command byte is whole. -/
theorem takeBeat_code (h : AtCommand s p) (hc : c.operandCount = 0) (he : s.isEnabled p = true) :
    takeBeat c p .code fixed decide s = .next (s.setLink p (.body c [] (fixed s))) := by
  unfold takeBeat
  rw [linkBeat_code h, if_pos hc, if_pos he]

theorem takeBeat_pass {ops : List Byte} {b : Body} (h : InBody s p c ops b) (hb : AtByte s p)
    (hc : beatOk c .pass = true) :
    takeBeat c p .pass fixed decide s = .next (s.setLink p (.body c ops b.pass)) :=
  linkBeat_pass h hb hc _ _

/-- The take is decided at select rise, unless it was refused or a withdrawal has ended it. -/
theorem takeBeat_rise {ops : List Byte} {b : Body} (h : InBody s p c ops b) (hc : c.cls ≠ .stream) (hended : b ≠ .ended)
    (hrefused : ∀ e, b ≠ .refused e) :
    takeBeat c p .rise fixed decide s =
      .next ((decide b (s.deselect p)).1.record p c.code (decide b (s.deselect p)).2) := by
  unfold takeBeat
  rw [linkBeat_rise h hc]
  cases b with
  | ended => exact absurd rfl hended
  | refused e => exact absurd rfl (hrefused e)
  | _ => rfl

end Course

section Take
variable {s : State} {p : Port} {ops : List Byte}

/-! ### The entry fixed, and its bytes (R75, R154) -/

theorem exec_takeInbound (p : Port) (b : Beat) (s : State) :
    exec (.takeInbound p b) s =
      takeBeat .takeInbound p b (fun t => .inbound t.inqs[p].entries.head? 0) (takeInbound p) s := rfl

theorem execTakeInbound_code (h : AtCommand s p) (he : s.isEnabled p = true) :
    exec (.takeInbound p .code) s =
      .next (s.setLink p (.body .takeInbound [] (.inbound s.inqs[p].entries.head? 0))) := by
  rw [exec_takeInbound, takeBeat_code _ _ h rfl he]

theorem State.pnDO_body {c : Cmd} {b : Body} (h : InBody s p c ops b) :
    s.pnDO p = some (b.outByte s.pius[p].stream) := by
  obtain ⟨hsel, hlink⟩ := h
  simp [-Fin.getElem_fin, State.pnDO, hsel, hlink]

theorem Entry.bytes_length (e : Entry) : e.bytes.length = 8 := rfl

/-- Byte k of the fixed entry is driven while it is below 8. -/
theorem pnDO_inbound {e : Entry} {k : Nat} (h : InBody s p .takeInbound ops (.inbound (some e) k)) (hk : k < 8) :
    s.pnDO p = e.bytes[k]? := by
  have hbyte : k < e.bytes.length := e.bytes_length ▸ hk
  rw [State.pnDO_body h, List.getElem?_eq_getElem hbyte]
  simp [Body.outByte, List.getD_eq_getElem?_getD, List.getElem?_eq_getElem hbyte]

/-- Past its last byte FFh is driven. -/
theorem pnDO_inbound_past {e : Entry} {k : Nat} (h : InBody s p .takeInbound ops (.inbound (some e) k)) (hk : 8 ≤ k) :
    s.pnDO p = some 0xFF := by
  have hbyte : e.bytes.length ≤ k := e.bytes_length ▸ hk
  rw [State.pnDO_body h]
  simp [Body.outByte, List.getD_eq_getElem?_getD, List.getElem?_eq_none hbyte]

theorem pnDO_inbound_none {k : Nat} (h : InBody s p .takeInbound ops (.inbound none k)) : s.pnDO p = some 0xFF := by
  rw [State.pnDO_body h]
  rfl

theorem execTakeInbound_pass {e : Entry} {k : Nat} (h : InBody s p .takeInbound ops (.inbound (some e) k))
    (hb : AtByte s p) (hk : k < 8) :
    exec (.takeInbound p .pass) s = .next (s.setLink p (.body .takeInbound ops (.inbound (some e) (k + 1)))) := by
  have hpass : (Body.inbound (some e) k).pass = .inbound (some e) (k + 1) := by simp [Body.pass, hk]
  rw [exec_takeInbound, takeBeat_pass _ _ h hb (by decide), hpass]

/-! ### The take (R76, R77) -/

theorem execTakeInbound_rise {f : Option Entry} {k : Nat} (h : InBody s p .takeInbound ops (.inbound f k)) :
    exec (.takeInbound p .rise) s =
      .next ((takeInbound p (.inbound f k) (s.deselect p)).1.record p 0x31
        (takeInbound p (.inbound f k) (s.deselect p)).2) := by
  rw [exec_takeInbound, takeBeat_rise _ _ h (by decide) nofun nofun]
  rfl

theorem takeInbound_incomplete (e : Entry) {k : Nat} (hk : k < 8) :
    takeInbound p (.inbound (some e) k) s = (s, ⟨.incomplete, w16 k, w16 s.inqs[p].entries.length⟩) :=
  if_pos hk

theorem takeInbound_whole (e : Entry) {e' : Entry} {es : List Entry} {k : Nat} (hk : 8 ≤ k)
    (hes : s.inqs[p].entries = e' :: es) : takeInbound p (.inbound (some e) k) s = takeHead p e' s := by
  simp only [takeInbound, if_neg (Nat.not_lt.mpr hk), hes, List.head?_cons]

/-- The queue a take leaves: its head removed, its taken offset and lap one place further (R70). -/
theorem InQueue.remove_cons {q : InQueue} {e : Entry} {es : List Entry} (h : q.entries = e :: es) (depth : Nat) :
    q.remove depth =
      { q with
        entries := es
        taken := (nextPlace depth q.taken q.takenLap).1
        takenLap := (nextPlace depth q.taken q.takenLap).2 } := by
  simp [InQueue.remove, nextPlace_eq, h]

variable {e : Entry} {es : List Entry} (hes : s.inqs[p].entries = e :: es)
include hes

/-- The entries left after a take. -/
theorem State.setInq_remove_entries : (s.setInq p (s.inqs[p].remove (s.committed.depth p))).inqs[p].entries = es := by
  rw [State.setInq_inqs, get_set, if_pos rfl, InQueue.remove_cons hes]

theorem takeHead_void (hv : e.void = true) :
    takeHead p e s = (s.setInq p (s.inqs[p].remove (s.committed.depth p)), ⟨.void, refWord e.ref, w16 es.length⟩) := by
  simp only [takeHead, hv, if_true, State.setInq_remove_entries hes]

theorem takeHead_live {d : Delivery} {l : Label} {c : Word} (hv : e.void = false)
    (hl : s.recs[e.ref.num].life = .delivering d l c) (hg : s.recs[e.ref.num].gen = e.ref.gen) :
    takeHead p e s =
      (((s.setInq p (s.inqs[p].remove (s.committed.depth p))).setRec e.ref.num
          { s.recs[e.ref.num] with
            life := .delivering { d with pend := without d.pend p, hold := withPort d.hold p } l c }).loadLease e.ref.num,
        ⟨.ok, refWord e.ref, w16 es.length⟩) := by
  simp only [takeHead, hv, Bool.false_eq_true, if_false, State.setInq_remove_entries hes]
  rw [State.takeLive_delivering (s := s.setInq p _) hl hg]
  rfl

end Take

end Sys2Proof.Machine

namespace Sys2Proof.Proofs
open Machine

/-- Settles O36: the entry is fixed at the command byte and driven byte by byte; the take is decided by the bytes
delivered and by the head as it stands at select rise. -/
theorem takeInbound : Obligations.TakeInbound := by
  refine fun s p => ⟨execTakeInbound_code, fun ops e k h => ⟨fun hk => ⟨pnDO_inbound h hk, fun hb => ?_, ?_⟩,
    fun e' es hk hes => ⟨pnDO_inbound_past h hk, fun hv => ?_, fun d l c hv hl hg => ?_⟩⟩, fun ops k h => ⟨?_, ?_⟩⟩
  · exact execTakeInbound_pass h hb hk
  · rw [execTakeInbound_rise h, takeInbound_incomplete e hk, State.deselect_record]
    rfl
  · have hes' : (s.deselect p).inqs[p].entries = e' :: es := hes
    rw [execTakeInbound_rise h, takeInbound_whole e hk hes', takeHead_void hes' hv,
      InQueue.remove_cons hes', State.record_deselected (s := s)] <;> rfl
  · have hes' : (s.deselect p).inqs[p].entries = e' :: es := hes
    have hlease : loaded s.committed.deliveryLease e'.ref.gen =
        loaded s.committed.deliveryLease s.recs[e'.ref.num].gen := by rw [hg]
    rw [hlease, execTakeInbound_rise h, takeInbound_whole e hk hes', takeHead_live (s := s.deselect p) hes' hv hl hg,
      InQueue.remove_cons hes', State.setRec_loadLease, State.record_deselected (s := s)] <;> rfl
  · exact pnDO_inbound_none h
  · rw [execTakeInbound_rise h]
    exact congrArg _ (State.deselect_record s p _ _)

end Sys2Proof.Proofs
end

section
/-! PROOFS. Release Chain, Adopt Chain and Recall Chain (R81, R83, R84, R86). -/

namespace Sys2Proof.Machine

/-- A holder's command, on the delivery it holds. -/
theorem chainCheck_held {s : State} {c : Cmd} {p : Port} {nb gb : Byte} {rest : List Byte} {n : ChainNo} {d : Delivery}
    {l : Label} {k : Word} (hc : c = .releaseChain ∨ c = .adoptChain) (h : Names s nb gb n)
    (hl : s.recs[n].life = .delivering d l k) (hp : inSet d.hold p = true) :
    s.chainCheck c p (nb :: gb :: rest) = .ok n := by
  have hrole : s.recs[n].life.hasRole p .holder = true := by rw [hl]; simp [Life.hasRole, Life.delivery, hp]
  rcases hc with rfl | rfl <;> exact chainCheck_delivering (by decide) h hl hrole

/-! ### Release Chain (R81) -/

theorem execReleaseChain_rise {s : State} {p : Port} {nb gb x : Byte} {n : ChainNo} {d : Delivery} {l : Label} {k : Word}
    (h : Waits s p .releaseChain [nb, gb, x]) (hn : Names s nb gb n) (hl : s.recs[n].life = .delivering d l k)
    (hp : inSet d.hold p = true) :
    exec (.releaseChain p .rise) s =
      .next ((releaseChain p n x (s.deselect p)).1.record p 0x32 (releaseChain p n x (s.deselect p)).2) :=
  chainBeat_ok h (by decide) (chainCheck_held (.inl rfl) hn hl hp) _

theorem without_of_not_inSet {m : PortSet} {p : Port} (h : inSet m p = false) : without m p = m :=
  portSet_ext fun q => by
    rw [inSet_without]
    by_cases hq : p = q
    · subst hq; simp [h]
    · simp [hq]

/-- The delivery that a holder leaves, by the disposition's byte. -/
theorem Delivery.leave_disposition {d : Delivery} {p : Port} {x : Byte} (hx : x = 0 ∨ x = 1)
    (hp : inSet d.pend p = false) :
    ∃ how, disposition x = some how ∧ d.leave p how =
      { d with
        hold := d.hold &&& ~~~ only p
        accepted := d.accepted + (if x = 0 then 1 else 0)
        refused := d.refused + (if x = 1 then 1 else 0) } := by
  have hpend : d.pend &&& ~~~ only p = d.pend := without_of_not_inSet hp
  rcases hx with rfl | rfl
  · exact ⟨.accepted, rfl, by simp [Delivery.leave, hpend, without]⟩
  · exact ⟨.refused, rfl, by simp [Delivery.leave, hpend, without]⟩

section Release
variable {s : State} {p : Port} {n : ChainNo} {x : Byte} {d : Delivery} {l : Label} {k : Word}

theorem releaseChain_range (h0 : x ≠ 0) (h1 : x ≠ 1) : releaseChain p n x s = (s, ⟨.range, 0, 0⟩) := by
  simp only [releaseChain, disposition, if_neg h0, if_neg h1]

theorem releaseChain_stays {how : Departure} (hx : disposition x = some how) (hl : s.recs[n].life = .delivering d l k)
    (hstays : (d.leave p how).finished = false) :
    releaseChain p n x s =
      ((s.setRec n { s.recs[n] with life := .delivering (d.leave p how) l k }).loadLease n,
        ⟨.ok, w16 (d.leave p how).left, 0⟩) := by
  have hd : s.recs[n].life.delivery = some d := by rw [hl]; rfl
  simp only [releaseChain, hx, hd, State.releaseBy, hstays, State.depart_stays hl hstays, Bool.false_eq_true, if_false]

theorem releaseChain_last {how : Departure} (hx : disposition x = some how) (hl : s.recs[n].life = .delivering d l k)
    (hlast : (d.leave p how).finished = true) :
    releaseChain p n x s =
      ((s.setRec n { s.recs[n] with life := .delivering (d.leave p how) l k }).endDelivery n (d.leave p how) l.tag,
        ⟨.ok, w16 (d.leave p how).left, 1⟩) := by
  have hd : s.recs[n].life.delivery = some d := by rw [hl]; rfl
  simp only [releaseChain, hx, hd, State.releaseBy, hlast, State.depart_last hl hlast, if_true]

/-- A delivery without participants has none left. -/
theorem Delivery.left_of_finished {d : Delivery} (h : d.finished = true) : d.left = 0 := by
  obtain ⟨hpend, hhold⟩ := (Delivery.finished_iff d).mp h
  rw [Delivery.left, hpend, hhold]
  rfl

end Release

/-! ### Adopt Chain (R83, R84) -/

theorem execAdoptChain_rise {s : State} {p : Port} {nb gb : Byte} {n : ChainNo} {d : Delivery} {l : Label} {k : Word}
    (h : Waits s p .adoptChain [nb, gb]) (hn : Names s nb gb n) (hl : s.recs[n].life = .delivering d l k)
    (hp : inSet d.hold p = true) :
    exec (.adoptChain p .rise) s =
      .next ((adoptChain p n (s.deselect p)).1.record p 0x33 (adoptChain p n (s.deselect p)).2) :=
  chainBeat_ok h (by decide) (chainCheck_held (.inr rfl) hn hl hp) _

section Adopt
variable {s : State} {p : Port} {n : ChainNo} {d : Delivery} {l : Label} {k : Word}
  (hl : s.recs[n].life = .delivering d l k)
include hl

theorem adoptChain_notSole (h : d.hold ≠ only p ∨ d.pend ≠ 0) :
    adoptChain p n s = (s, ⟨.notSole, w16 (card d.hold), w16 (card d.pend)⟩) := by
  have hsole : (decide (d.hold ≠ only p) || decide (d.pend ≠ 0)) = true := by simpa using h
  simp only [adoptChain, hl, hsole, if_true]

variable (hhold : d.hold = only p) (hpend : d.pend = 0)
include hhold hpend

theorem adoptChain_hops (h : l.hops = 7) : adoptChain p n s = (s, ⟨.hops, 7, 0⟩) := by
  simp [-Fin.getElem_fin, adoptChain, hl, hhold, hpend, h]

theorem adoptChain_quotaChains (h : l.hops ≠ 7) (hq : s.committed.chainQuota p ≤ s.chChains[p]) :
    adoptChain p n s = (s, ⟨.quotaChains, w16 s.chChains[p], w16 (s.committed.chainQuota p)⟩) := by
  simp [-Fin.getElem_fin, adoptChain, hl, hhold, hpend, h, hq]

theorem adoptChain_quotaBlocks (h : l.hops ≠ 7) (hq : s.chChains[p] < s.committed.chainQuota p)
    (hb : s.committed.blockQuota p < s.chBlocks[p] + s.recs[n].blocks.length) :
    adoptChain p n s = (s, ⟨.quotaBlocks, w16 s.chBlocks[p], w16 (s.committed.blockQuota p)⟩) := by
  simp [-Fin.getElem_fin, adoptChain, hl, hhold, hpend, h, Nat.not_le.mpr hq, hb]

theorem adoptChain_ok (h : l.hops ≠ 7) (hq : s.chChains[p] < s.committed.chainQuota p)
    (hb : s.chBlocks[p] + s.recs[n].blocks.length ≤ s.committed.blockQuota p) :
    adoptChain p n s = (s.adopt n p d l k, ⟨.ok, w16 (l.hops.val + 1), w16 s.recs[n].blocks.length⟩) := by
  simp [-Fin.getElem_fin, adoptChain, hl, hhold, hpend, h, Nat.not_le.mpr hq, Nat.not_lt.mpr hb]

end Adopt

/-- The adoption from another origin as one update (R84, R120). -/
theorem State.adopt_record {s : State} {p : Port} {d : Delivery} (ho : d.origin ≠ p) (n : ChainNo) (l : Label) (k : Word)
    (e : Ending) :
    ((s.deselect p).adopt n p d l k).record p 0x33 e =
      { s.offer d.origin
          (.consumed ⟨n, s.recs[n].gen⟩ l.tag (d.accepted + 1) d.refused d.withdrawn (card d.dests)) with
        recs := s.recs.set n { s.recs[n] with life := .sealed p ⟨l.tag, l.hops + 1⟩ k }
        chBlocks := (s.chBlocks.set d.origin (s.chBlocks[d.origin] - s.recs[n].blocks.length)).set p
          (s.chBlocks[p] + s.recs[n].blocks.length)
        chChains := (s.chChains.set d.origin (s.chChains[d.origin] - 1)).set p (s.chChains[p] + 1)
        leases := s.leases.set n (loaded (s.committed.ownerLease p) s.recs[n].gen)
        pius := s.pius.set p (s.pius[p].answered 0x33 e) } := by
  rw [State.record_deselected (s := s), State.adopt, State.setRec_loadLease]
  · simp [-Fin.getElem_fin, State.charge, State.discharge, get_set, ho]
    exact ⟨rfl, rfl, rfl⟩
  · rfl

/-! ### Recall Chain (R86) -/

theorem execRecallChain_rise {s : State} {p : Port} {nb gb : Byte} {n : ChainNo} {d : Delivery} {l : Label} {k : Word}
    (h : Waits s p .recallChain [nb, gb]) (hn : Names s nb gb n) (hl : s.recs[n].life = .delivering d l k)
    (ho : d.origin = p) :
    exec (.recallChain p .rise) s =
      .next ((recallChain n (s.deselect p)).1.record p 0x34 (recallChain n (s.deselect p)).2) := by
  have hrole : s.recs[n].life.hasRole p .origin = true := by rw [hl]; simp [Life.hasRole, Life.delivery, ho]
  exact chainBeat_ok h (by decide) (chainCheck_delivering (by decide) hn hl hrole) _

theorem recallChain_taken {s : State} {n : ChainNo} {d : Delivery} {l : Label} {k : Word}
    (hl : s.recs[n].life = .delivering d l k) (h : d.hold ≠ 0) :
    recallChain n s = (s, ⟨.taken, w16 (card d.hold), w16 (card d.pend)⟩) := by
  simp only [recallChain, hl, if_pos h]

theorem recallChain_ok {s : State} {n : ChainNo} {d : Delivery} {l : Label} {k : Word}
    (hl : s.recs[n].life = .delivering d l k) (h : d.hold = 0) :
    recallChain n s = (s.recall n d l k,
      ⟨.ok, w16 (s.liveEntries ⟨n, s.recs[n].gen⟩), w16 (d.accepted + d.refused + d.withdrawn)⟩) := by
  have hhold : ¬d.hold ≠ 0 := Decidable.not_not.mpr h
  simp only [recallChain, hl, if_neg hhold]

end Sys2Proof.Machine

namespace Sys2Proof.Proofs
open Machine

/-- Settles O37: the disposition out of range, a participant left, none left. -/
theorem releaseChain : Obligations.ReleaseChain := by
  intro s p nb gb x n d d' l k h hn hl hp hpend hd'
  have hleave (hx : x = 0 ∨ x = 1) : ∃ how, disposition x = some how ∧ d.leave p how = d' :=
    hd' ▸ Delivery.leave_disposition hx hpend
  rw [execReleaseChain_rise h hn hl hp]
  refine ⟨fun h0 h1 => ?_, fun hx hleft => ?_, fun hx hpend0 hhold0 => ?_⟩
  · rw [releaseChain_range h0 h1, State.deselect_record]
  · obtain ⟨how, hhow, rfl⟩ := hleave hx
    have hstays : (d.leave p how).finished = false := by
      rw [← Bool.not_eq_true, Delivery.finished_iff, not_and_or]
      exact hleft
    rw [releaseChain_stays (s := s.deselect p) hhow hl hstays, State.setRec_loadLease,
      State.record_deselected (s := s)] <;> rfl
  · obtain ⟨how, hhow, rfl⟩ := hleave hx
    have hlast : (d.leave p how).finished = true := (Delivery.finished_iff _).mpr ⟨hpend0, hhold0⟩
    rw [releaseChain_last (s := s.deselect p) hhow hl hlast, Delivery.left_of_finished hlast, State.endDelivery,
      State.setRec_get, Delivery.leave_origin, Delivery.consumed, Delivery.leave_dests]
    rfl

/-- Settles O38: the four checks in order, then the adoption. -/
theorem adoptChain : Obligations.AdoptChain := by
  intro s p nb gb n d l k h hn hl hp ho
  have hl' : (s.deselect p).recs[n].life = .delivering d l k := hl
  have below {hops : Fin 8} (hlt : hops < 7) : hops ≠ 7 := Fin.ne_of_lt hlt
  rw [execAdoptChain_rise h hn hl hp]
  refine ⟨fun hsole => ?_, fun hhold hpend hhops => ?_, fun hhold hpend hhops hq => ?_,
    fun hhold hpend hhops hq hb => ?_, fun hhold hpend hhops hq hb => ?_⟩
  · rw [adoptChain_notSole hl' hsole, State.deselect_record]
  · rw [adoptChain_hops hl' hhold hpend hhops, State.deselect_record]
  · rw [adoptChain_quotaChains hl' hhold hpend (below hhops) hq, State.deselect_record]
    rfl
  · rw [adoptChain_quotaBlocks hl' hhold hpend (below hhops) hq hb, State.deselect_record]
    rfl
  · rw [adoptChain_ok hl' hhold hpend (below hhops) hq hb, State.adopt_record ho]
    rfl

/-- Settles O39: a destination holds the chain, or none does. -/
theorem recallChain : Obligations.RecallChain := by
  intro s p nb gb n d l k h hn hl ho
  have hl' : (s.deselect p).recs[n].life = .delivering d l k := hl
  rw [execRecallChain_rise h hn hl ho]
  refine ⟨fun hhold => ?_, fun hhold => ?_⟩
  · rw [recallChain_taken hl' hhold, State.deselect_record]
  · rw [recallChain_ok hl' hhold, State.recall, State.setRec_loadLease, State.record_deselected (s := s), ho] <;> rfl

end Sys2Proof.Proofs
end

section
/-! PROOFS. Notices: a notice offered is placed or dropped (R90); Take Notice, its fixed notice and bytes, and the take
decided at select rise (R92 to R99). -/

namespace Sys2Proof.Machine

section TakeNotice
variable {s : State} {p : Port} {ops : List Byte}

/-! ### The notice fixed, and its bytes (R92, R98) -/

theorem exec_takeNotice (p : Port) (b : Beat) (s : State) :
    exec (.takeNotice p b) s = takeBeat .takeNotice p b (fun t => .notice t.notqs[p].head? 0) (takeNotice p) s := rfl

theorem execTakeNotice_code (h : AtCommand s p) (he : s.isEnabled p = true) :
    exec (.takeNotice p .code) s =
      .next (s.setLink p (.body .takeNotice [] (.notice s.notqs[p].head? 0))) := by
  rw [exec_takeNotice, takeBeat_code _ _ h rfl he]

/-- Every kind has 10 bytes. -/
theorem Notice.bytes_length (m : Notice) : m.bytes.length = 10 := by
  cases m <;> rfl

/-- Byte k of the fixed notice is driven while it is below 10. -/
theorem pnDO_notice {m : Notice} {k : Nat} (h : InBody s p .takeNotice ops (.notice (some m) k)) (hk : k < 10) :
    s.pnDO p = m.bytes[k]? := by
  have hbyte : k < m.bytes.length := m.bytes_length ▸ hk
  rw [State.pnDO_body h, List.getElem?_eq_getElem hbyte]
  simp [Body.outByte, List.getD_eq_getElem?_getD, List.getElem?_eq_getElem hbyte]

/-- Past its last byte FFh is driven. -/
theorem pnDO_notice_past {m : Notice} {k : Nat} (h : InBody s p .takeNotice ops (.notice (some m) k)) (hk : 10 ≤ k) :
    s.pnDO p = some 0xFF := by
  have hbyte : m.bytes.length ≤ k := m.bytes_length ▸ hk
  rw [State.pnDO_body h]
  simp [Body.outByte, List.getD_eq_getElem?_getD, List.getElem?_eq_none hbyte]

theorem pnDO_notice_none {k : Nat} (h : InBody s p .takeNotice ops (.notice none k)) : s.pnDO p = some 0xFF := by
  rw [State.pnDO_body h]
  rfl

theorem execTakeNotice_pass {m : Notice} {k : Nat} (h : InBody s p .takeNotice ops (.notice (some m) k))
    (hb : AtByte s p) (hk : k < 10) :
    exec (.takeNotice p .pass) s = .next (s.setLink p (.body .takeNotice ops (.notice (some m) (k + 1)))) := by
  have hpass : (Body.notice (some m) k).pass = .notice (some m) (k + 1) := by simp [Body.pass, hk]
  rw [exec_takeNotice, takeBeat_pass _ _ h hb (by decide), hpass]

/-! ### The take (R99) -/

theorem execTakeNotice_rise {f : Option Notice} {k : Nat} (h : InBody s p .takeNotice ops (.notice f k)) :
    exec (.takeNotice p .rise) s =
      .next ((takeNotice p (.notice f k) (s.deselect p)).1.record p 0x38
        (takeNotice p (.notice f k) (s.deselect p)).2) := by
  rw [exec_takeNotice, takeBeat_rise _ _ h (by decide) nofun nofun]
  rfl

theorem takeNotice_incomplete (m : Notice) {k : Nat} (hk : k < 10) :
    takeNotice p (.notice (some m) k) s = (s, ⟨.incomplete, w16 k, w16 s.notqs[p].length⟩) :=
  if_pos hk

theorem takeNotice_none (k : Nat) : takeNotice p (.notice none k) s = (s, ⟨.empty, 0, 0⟩) := rfl

theorem takeNotice_whole (m : Notice) {m' : Notice} {ms : List Notice} {k : Nat} (hk : 10 ≤ k)
    (hms : s.notqs[p] = m' :: ms) :
    takeNotice p (.notice (some m) k) s = (s.setNotq p ms, ⟨.ok, m.kind.setWidth 16, w16 ms.length⟩) := by
  simp only [takeNotice, if_neg (Nat.not_lt.mpr hk), hms, List.tail_cons]

end TakeNotice

end Sys2Proof.Machine

namespace Sys2Proof.Proofs
open Machine

/-- Settles O40: the port disabled, its queue full, room in its queue. -/
theorem noticePlaced : Obligations.NoticePlaced :=
  fun _ _ m => ⟨State.offer_disabled m, State.offer_full m, State.offer_room m⟩

/-- Settles O41: the notice is fixed at the command byte and driven byte by byte in the layout of its kind; the take is
decided by the bytes delivered. -/
theorem takeNotice : Obligations.TakeNotice := by
  refine fun s p => ⟨execTakeNotice_code, fun ops m k h => ⟨fun hk => ⟨?_, fun hb => ?_, ?_⟩,
    fun ms hk hms => ⟨pnDO_notice_past h hk, ?_⟩⟩, fun ops k h => ⟨pnDO_notice_none h, ?_⟩⟩
  · rw [pnDO_notice h hk]
    cases m <;> rfl
  · exact execTakeNotice_pass h hb hk
  · rw [execTakeNotice_rise h, takeNotice_incomplete m hk, State.deselect_record]
    rfl
  · have hms' : (s.deselect p).notqs[p] = m :: ms := hms
    rw [execTakeNotice_rise h, takeNotice_whole m hk hms', State.record_deselected (s := s)]
    · cases m <;> rfl
    · rfl
  · rw [execTakeNotice_rise h, takeNotice_none, State.deselect_record]

end Sys2Proof.Proofs
end

section
/-! PROOFS. Renew Lease, the time base and the expiries (sections 7.1 to 7.7). -/

namespace Sys2Proof.Machine

/-! ### Renew Lease (R108) -/

/-- An owned record is in one of the three states in which R12 lets its owner renew the lease. -/
theorem phase_renewable_of_owner {l : Life} {p : Port} (h : l.owner = some p) : l.phase ∈ ownerStates .renewLease := by
  cases l with
  | vacant => simp [Life.owner] at h
  | delivering => simp [Life.owner] at h
  | opened | sealing | sealed => simp [ownerStates, Life.phase]

theorem leaseLength_of_owner {l : Life} {p : Port} (h : l.owner = some p) (c : Settings) :
    leaseLength c l = c.ownerLease p := by
  cases l with
  | vacant => simp [Life.owner] at h
  | delivering => simp [Life.owner] at h
  | opened | sealing | sealed => exact congrArg c.ownerLease (Option.some.inj h)

theorem delivering_of_delivery {l : Life} {d : Delivery} (h : l.delivery = some d) : ∃ m k, l = .delivering d m k := by
  cases l with
  | delivering d' m k => exact ⟨m, k, by rw [Option.some.inj h]⟩
  | vacant | opened | sealing | sealed => simp [Life.delivery] at h

section Renew
variable {s : State} {p : Port} {nb gb : Byte} {n : ChainNo}

theorem chainCheck_renewLease_owner (h : Names s nb gb n) (ho : s.recs[n].life.owner = some p) :
    s.chainCheck .renewLease p [nb, gb] = .ok n := by
  have hrole : holdsRole .renewLease s.recs[n].life p = true := holdsRole_of_owner (by decide) ho
  exact chainCheck_owner (by decide) h hrole ho (phase_renewable_of_owner ho)

theorem chainCheck_renewLease_participant {d : Delivery} {l : Label} {k : Word} (h : Names s nb gb n)
    (hl : s.recs[n].life = .delivering d l k) (hp : d.origin = p ∨ inSet d.pend p = true ∨ inSet d.hold p = true) :
    s.chainCheck .renewLease p [nb, gb] = .ok n := by
  have hrole : holdsRole .renewLease s.recs[n].life p = true := by
    rw [hl]
    rcases hp with hp | hp | hp <;> simp [holdsRole, Life.hasRole, Life.owner, Life.delivery, hp]
  exact chainCheck_delivering (by decide) h hl hrole

/-- An accepted renewal loads the counter by the record's state and records the length loaded and the state code. -/
theorem execRenewLease_rise (h : Waits s p .renewLease [nb, gb]) (hn : s.chainCheck .renewLease p [nb, gb] = .ok n) :
    exec (.renewLease p .rise) s = .next
      { s with
        leases := s.leases.set n (loaded (leaseLength s.committed s.recs[n].life) s.recs[n].gen)
        pius := s.pius.set p (s.pius[p].answered 0x28
          ⟨.ok, w16 (leaseLength s.committed s.recs[n].life), w16 s.recs[n].life.phase.code⟩) } :=
  (chainBeat_ok h (by decide) hn _).trans
    (congrArg _ (State.record_deselected (t := (s.deselect p).loadLease n) rfl _ _))

end Renew

/-! ### The tick (R102, R103, R106, R113) -/

theorem Settings.tickRatio_eq {c : Settings} (h : c.tickSelect ≤ 3) : c.tickRatio = 32 * 4 ^ c.tickSelect := by
  unfold Settings.tickRatio
  generalize c.tickSelect = k at h
  interval_cases k <;> rfl

/-- A tick is due when BS is READY and the next period brings the divider to its ratio. -/
theorem State.tickDue_iff (s : State) :
    s.tickDue = true ↔ s.ready = true ∧ s.committed.tickRatio ≤ s.divider + 1 := by
  simp [State.tickDue]

theorem exec_tick_due {s : State} (h : s.tickDue = true) : exec .tick s = .next s.tick := if_pos h

theorem exec_tick_notDue {s : State} (h : ¬s.tickDue = true) : exec .tick s = .next s := if_neg h

theorem exec_refclkPeriod_due {s : State} (hr : s.ready = true) (h : s.tickDue = true) :
    exec .refclkPeriod s = .next s.tick :=
  (if_neg (by simp [hr])).trans (if_pos h)

theorem exec_refclkPeriod_counts {s : State} (hr : s.ready = true) (h : ¬s.tickDue = true) :
    exec .refclkPeriod s = .next { s with divider := s.divider + 1 } :=
  (if_neg (by simp [hr])).trans (if_neg h)

theorem exec_refclkPeriod_notReady {s : State} (hr : s.ready = false) : exec .refclkPeriod s = .next s :=
  if_pos (by simp [hr])

/-! ### The expiry of a chain lease (R109) -/

section ChainExpiry
variable {s : State} {n : ChainNo} {g : Gen}

theorem exec_chainLeaseExpiry (n : ChainNo) (s : State) : exec (.chainLeaseExpiry n) s = execChainLeaseExpiry n s := rfl

theorem exec_chainLeaseExpiry_notRaised (h : ∀ g, s.leases[n] ≠ .raised g) : exec (.chainLeaseExpiry n) s = .next s := by
  rw [exec_chainLeaseExpiry, execChainLeaseExpiry]
  split
  case h_1 g hg => exact absurd hg (h g)
  all_goals rfl

theorem exec_chainLeaseExpiry_acts (h : s.leases[n] = .raised g) (hg : s.recs[n].gen = g)
    (hv : s.recs[n].life ≠ .vacant) : exec (.chainLeaseExpiry n) s = .next (s.expire n) := by
  rw [exec_chainLeaseExpiry]
  simp [-Fin.getElem_fin, execChainLeaseExpiry, h, hg, phase_vacant, hv]

theorem exec_chainLeaseExpiry_dropped (h : s.leases[n] = .raised g)
    (hn : s.recs[n].gen ≠ g ∨ s.recs[n].life = .vacant) :
    exec (.chainLeaseExpiry n) s = .next { s with leases := s.leases.set n .none } := by
  rw [exec_chainLeaseExpiry]
  rcases hn with hg | hv
  · simp [-Fin.getElem_fin, execChainLeaseExpiry, h, hg, State.setLease]
  · simp [-Fin.getElem_fin, execChainLeaseExpiry, h, hv, Life.phase, State.setLease]

/-- The owner alone is sent EXPIRED, in the three states that have an owner. -/
theorem State.expiryNotices_owned {o : Port} {l : Label} (ho : s.recs[n].life.owner = some o)
    (hl : s.recs[n].life.label = some l) :
    s.expiryNotices n = s.offer o (.expired ⟨n, s.recs[n].gen⟩ l.tag s.recs[n].life.phase 0 0) := by
  cases hlife : s.recs[n].life with
  | vacant => simp [-Fin.getElem_fin, hlife, Life.owner] at ho
  | delivering => simp [-Fin.getElem_fin, hlife, Life.owner] at ho
  | opened | sealing | sealed =>
    rw [hlife] at ho hl
    obtain rfl := Option.some.inj ho
    obtain rfl := Option.some.inj hl
    simp only [State.expiryNotices, hlife, Life.phase]

/-- The origin is sent EXPIRED, then each holder REVOKED, lowest port first. -/
theorem State.expiryNotices_delivering {d : Delivery} {l : Label} {k : Word} (hl : s.recs[n].life = .delivering d l k) :
    s.expiryNotices n =
      (ports.filter (inSet d.hold)).foldl (fun t q => t.offer q (.revoked ⟨n, s.recs[n].gen⟩ l.tag d.origin))
        (s.offer d.origin (.expired ⟨n, s.recs[n].gen⟩ l.tag .delivering (card d.pend) (card d.hold))) := by
  simp only [State.expiryNotices, hl]

end ChainExpiry

/-! ### The expiry of the claim lease (R113) -/

theorem exec_claimLeaseExpiry (s : State) : exec .claimLeaseExpiry s = execClaimLeaseExpiry s := rfl

theorem exec_claimLeaseExpiry_notRaised {s : State} (h : s.claimLease ≠ .raised) :
    exec .claimLeaseExpiry s = .next s := by
  rw [exec_claimLeaseExpiry, execClaimLeaseExpiry]
  split
  case h_1 hr => exact absurd hr h
  all_goals rfl

theorem exec_claimLeaseExpiry_raised {s : State} (h : s.claimLease = .raised) :
    exec .claimLeaseExpiry s = .next s.lapse := by
  rw [exec_claimLeaseExpiry]
  simp only [execClaimLeaseExpiry, h]

theorem State.lapse_claimed {s : State} {cl : Claim} (h : s.claim = some cl) :
    s.lapse = s.endClaim.offer cl.holder .claimLapsed := by
  simp only [State.lapse, h]

theorem State.lapse_unclaimed {s : State} (h : s.claim = none) : s.lapse = { s with claimLease := .none } := by
  simp only [State.lapse, State.endClaim, h]

end Sys2Proof.Machine

namespace Sys2Proof.Proofs
open Machine

/-- Settles O23: the owner's renewal and a participant's both load the counter by the record's state. -/
theorem renewLeaseLoads : Obligations.RenewLeaseLoads := by
  refine fun s p nb gb n h hn => ⟨fun o ho hop => ?_, fun d hd hp => ?_⟩
  · have ho' : s.recs[n].life.owner = some p := hop ▸ ho
    rw [execRenewLease_rise h (chainCheck_renewLease_owner hn ho'), leaseLength_of_owner ho']
  · obtain ⟨l, k, hl⟩ := delivering_of_delivery hd
    rw [execRenewLease_rise h (chainCheck_renewLease_participant hn hl hp), hl]
    rfl

/-- Settles O49: the tick is due, a period counts towards it, BS is not READY. -/
theorem tickCounts : Obligations.TickCounts := by
  refine ⟨fun _ => Settings.tickRatio_eq, fun s t ht => ?_⟩
  have htick : t = s.tick := ht
  rw [htick]
  refine ⟨fun hr hdue => ?_, fun hr hbelow => ?_, fun hr => ?_⟩
  · have hdue' := s.tickDue_iff.mpr ⟨hr, hdue⟩
    exact ⟨exec_tick_due hdue', exec_refclkPeriod_due hr hdue'⟩
  · have hnot : ¬s.tickDue = true := fun h => Nat.not_le.mpr hbelow (s.tickDue_iff.mp h).2
    exact ⟨exec_refclkPeriod_counts hr hnot, exec_tick_notDue hnot⟩
  · have hnot : ¬s.tickDue = true := fun h => Bool.false_ne_true (hr ▸ (s.tickDue_iff.mp h).1)
    exact ⟨exec_refclkPeriod_notReady hr, exec_tick_notDue hnot⟩

/-- Settles O50: an expiry that is not taken, acts on a record with an owner or under delivery, or is dropped; a claim
expiry with the claim held or ended. -/
theorem expiries : Obligations.Expiries := by
  refine ⟨fun _ _ => exec_chainLeaseExpiry_notRaised, fun _ => exec_claimLeaseExpiry_notRaised,
    fun s n g h => ⟨fun hg => ⟨fun o l ho hl => ?_, fun d l k hl => ?_⟩, exec_chainLeaseExpiry_dropped h⟩,
    fun s h => ⟨fun cl hcl => ?_, fun hcl => ?_⟩⟩
  · subst hg
    rw [exec_chainLeaseExpiry_acts h rfl (ne_vacant_of_owner ho), State.expire, State.expiryNotices_owned ho hl]
  · subst hg
    have hv : s.recs[n].life ≠ .vacant := by rw [hl]; nofun
    rw [exec_chainLeaseExpiry_acts h rfl hv, State.expire, State.expiryNotices_delivering hl]
    rfl
  · rw [exec_claimLeaseExpiry_raised h, State.lapse_claimed hcl]
    rfl
  · rw [exec_claimLeaseExpiry_raised h, State.lapse_unclaimed hcl]

end Sys2Proof.Proofs
end

section
/-! PROOFS. The charge counters beside the records (R116, R117): what a port is charged for changes with one record, and
every operation that moves a charge moves it on both sides. -/

namespace Sys2Proof.Machine

/-! ### What the records hold for a port -/

/-- What a record counts for port p, by the weight w: nothing unless it is charged to p. -/
def ChainRec.share (w : ChainRec → Nat) (p : Port) (r : ChainRec) : Nat := if r.life.charged = some p then w r else 0

/-- The weight of the records charged to port p. -/
def State.held (w : ChainRec → Nat) (s : State) (p : Port) : Nat := ((s.chargedTo p).map w).sum

/-- The weight of the charged-block count (R116). -/
def ChainRec.blockCount (r : ChainRec) : Nat := r.blocks.length

/-- The weight of the charged-chain count (R116). -/
def ChainRec.one (_ : ChainRec) : Nat := 1

theorem State.held_one (s : State) (p : Port) : s.held ChainRec.one p = (s.chargedTo p).length := by
  have hone : ChainRec.one = fun _ => 1 := rfl
  simp [State.held, hone]

theorem ChainRec.share_of_charged {r : ChainRec} {q : Port} (h : r.life.charged = some q) (w : ChainRec → Nat)
    (p : Port) : r.share w p = if q = p then w r else 0 := by
  simp [ChainRec.share, h]

theorem ChainRec.share_of_uncharged {r : ChainRec} (h : r.life.charged = none) (w : ChainRec → Nat) (p : Port) :
    r.share w p = 0 := by
  simp [ChainRec.share, h]

/-- The records charged to a port, record by record. -/
theorem State.chargedTo_flatMap (s : State) (p : Port) :
    s.chargedTo p = s.recs.toList.flatMap (fun r => if r.life.charged = some p then [r] else []) := by
  unfold State.chargedTo
  induction s.recs.toList with
  | nil => rfl
  | cons r l ih =>
    rw [List.flatMap_cons, ← ih]
    by_cases h : r.life.charged = some p <;> simp [h]

/-- A record is exchanged: what is held changes by its share. -/
theorem State.setRec_held (w : ChainRec → Nat) (s : State) (n : ChainNo) (r : ChainRec) (p : Port) :
    (s.setRec n r).held w p + s.recs[n].share w p = s.held w p + r.share w p := by
  have hsum := ((flatMap_set_perm s.recs n r (fun r => if r.life.charged = some p then [r] else [])).map w).sum_eq
  rw [← State.setRec_recs, ← State.chargedTo_flatMap, ← State.chargedTo_flatMap] at hsum
  have hshare (r : ChainRec) : ((if r.life.charged = some p then [r] else []).map w).sum = r.share w p := by
    unfold ChainRec.share
    split <;> simp
  rwa [List.map_append, List.map_append, List.sum_append, List.sum_append, hshare, hshare] at hsum

/-- A record's share is part of what is held. -/
theorem State.share_le_held (w : ChainRec → Nat) (s : State) (n : ChainNo) (p : Port) :
    s.recs[n].share w p ≤ s.held w p := by
  have hset := s.setRec_held w n { s.recs[n] with life := .vacant } p
  rw [ChainRec.share_of_uncharged (r := { s.recs[n] with life := .vacant }) rfl] at hset
  omega

/-! ### Counters of four ports -/

/-- Adding to one counter. -/
theorem get_set_add {m : Nat} (v : Vector Nat m) (q p : Fin m) (k : Nat) :
    (v.set q (v[q] + k))[p] = v[p] + if q = p then k else 0 := by
  rw [get_set]
  split
  · next e => rw [e]
  · rfl

/-- Taking away from one counter. -/
theorem get_set_sub {m : Nat} {v : Vector Nat m} {q : Fin m} {k : Nat} (h : k ≤ v[q]) (p : Fin m) :
    (v.set q (v[q] - k))[p] + (if q = p then k else 0) = v[p] := by
  rw [get_set]
  split
  · next e => exact e ▸ Nat.sub_add_cancel h
  · rfl

/-- Moving from one counter to another, or to the same one. -/
theorem get_set_move {m : Nat} {v : Vector Nat m} {o : Fin m} {k : Nat} (h : k ≤ v[o]) (q p : Fin m) :
    ((v.set o (v[o] - k)).set q ((v.set o (v[o] - k))[q] + k))[p] + (if o = p then k else 0) =
      v[p] + if q = p then k else 0 := by
  have hleft := get_set_sub h p
  rw [get_set_add]
  omega

/-! ### The invariant -/

/-- Each counter of a port is what its records hold. -/
def CountersInv (s : State) : Prop :=
  ∀ p : Port, s.chBlocks[p] = s.held ChainRec.blockCount p ∧ s.chChains[p] = s.held ChainRec.one p

theorem chargesInv_iff (s : State) : ChargesInv s ↔ PiusAgree s ∧ CountersInv s := by
  have hcounters : CountersInv s ↔
      ∀ p : Port, s.chBlocks[p] = ((s.chargedTo p).map (·.blocks.length)).sum ∧
        s.chChains[p] = (s.chargedTo p).length :=
    forall_congr' fun p => by rw [State.held_one]; rfl
  unfold ChargesInv
  rw [piusAgree_iff, hcounters]
  exact and_comm

theorem CountersInv.congr {s t : State} (h : CountersInv s) (hr : t.recs = s.recs) (hb : t.chBlocks = s.chBlocks)
    (hc : t.chChains = s.chChains) : CountersInv t := by
  unfold CountersInv State.held State.chargedTo
  rw [hr, hb, hc]
  exact h

theorem CountersInv.frame {s t : State} (h : CountersInv s) (hs : t.stock = s.stock) : CountersInv t := by
  simp only [State.stock, Prod.mk.injEq] at hs
  obtain ⟨-, -, -, -, hr, hb, hc⟩ := hs
  exact h.congr hr hb hc

/-- One record is exchanged, and the counters move by its shares. -/
theorem CountersInv.of_record {s t : State} {n : ChainNo} {r : ChainRec} (h : CountersInv s)
    (hr : t.recs = s.recs.set n r)
    (hb : ∀ p : Port, t.chBlocks[p] + s.recs[n].share ChainRec.blockCount p =
      s.chBlocks[p] + r.share ChainRec.blockCount p)
    (hc : ∀ p : Port, t.chChains[p] + s.recs[n].share ChainRec.one p = s.chChains[p] + r.share ChainRec.one p) :
    CountersInv t := by
  have hheld (w : ChainRec → Nat) (p : Port) : t.held w p = (s.setRec n r).held w p := by
    unfold State.held State.chargedTo
    rw [hr, State.setRec_recs]
  intro p
  obtain ⟨hblocks, hchains⟩ := h p
  have hb := hb p
  have hc := hc p
  have hsetb := s.setRec_held ChainRec.blockCount n r p
  have hsetc := s.setRec_held ChainRec.one n r p
  rw [hheld, hheld]
  constructor <;> omega

/-- The counters cover the shares of a record charged to a port. -/
theorem CountersInv.covers {s : State} {n : ChainNo} {q : Port} (h : CountersInv s)
    (hq : s.recs[n].life.charged = some q) : s.recs[n].blocks.length ≤ s.chBlocks[q] ∧ 1 ≤ s.chChains[q] := by
  obtain ⟨hblocks, hchains⟩ := h q
  have hb := s.share_le_held ChainRec.blockCount n q
  have hc := s.share_le_held ChainRec.one n q
  rw [ChainRec.share_of_charged hq, if_pos rfl] at hb hc
  exact ⟨hblocks ▸ hb, hchains ▸ hc⟩

/-- A record keeps its charged port and its blocks. -/
theorem CountersInv.setRec {s : State} {n : ChainNo} {r : ChainRec} (h : CountersInv s)
    (hcharged : r.life.charged = s.recs[n].life.charged) (hblocks : r.blocks = s.recs[n].blocks) :
    CountersInv (s.setRec n r) := by
  refine h.of_record rfl (fun p => ?_) fun p => ?_
  · simp only [State.setRec_chBlocks, ChainRec.share, ChainRec.blockCount, hcharged, hblocks]
  · simp only [State.setRec_chChains, ChainRec.share, ChainRec.one, hcharged]

/-! ### Open Chain, Adopt Chain, the vacate -/

/-- A record opened counts one chain and no block (R15). -/
theorem CountersInv.openAt {s : State} {n : ChainNo} (p : Port) (tag : Word) (h : CountersInv s)
    (hv : s.recs[n].life = .vacant) : CountersInv (s.openAt n p tag) := by
  have huncharged : s.recs[n].life.charged = none := by rw [hv]; rfl
  refine h.of_record (n := n) (r := { gen := s.recs[n].gen, life := .opened p ⟨tag, 0⟩, length := 0, blocks := [] })
    rfl (fun q => ?_) fun q => ?_
  all_goals rw [ChainRec.share_of_uncharged huncharged, ChainRec.share_of_charged (q := p) rfl]
  · exact get_set_add s.chBlocks p q 0
  · exact get_set_add s.chChains p q 1

/-- Adoption takes the charge from the origin and gives it to the adopter, who may be any port (R84). -/
theorem CountersInv.adopt {s : State} {n : ChainNo} {d : Delivery} {l : Label} {c : Word} (p : Port) (h : CountersInv s)
    (hd : s.recs[n].life = .delivering d l c) : CountersInv (s.adopt n p d l c) := by
  have hcharged : s.recs[n].life.charged = some d.origin := by rw [hd]; rfl
  obtain ⟨hblocks, hchains⟩ := h.covers hcharged
  refine h.of_record (n := n) (r := { s.recs[n] with life := .sealed p ⟨l.tag, l.hops + 1⟩ c })
    (by simp [State.adopt]) (fun q => ?_) fun q => ?_
  all_goals rw [ChainRec.share_of_charged hcharged, ChainRec.share_of_charged (q := p) rfl]
  · exact get_set_move hblocks p q
  · exact get_set_move hchains p q

/-- A VACANT record is charged to no port, and its vacate discharges none. -/
theorem State.vacate_uncharged {s : State} {n : ChainNo} (h : s.recs[n].life.charged = none) :
    (s.vacate n).chBlocks = s.chBlocks ∧ (s.vacate n).chChains = s.chChains := by
  simp [-Fin.getElem_fin, State.vacate, State.uncharge, h]

theorem CountersInv.vacate {s : State} (h : CountersInv s) (n : ChainNo) : CountersInv (s.vacate n) := by
  have hnone (w : ChainRec → Nat) (p : Port) :
      ({ gen := s.recs[n].gen + 1, life := .vacant, length := 0, blocks := [] } : ChainRec).share w p = 0 :=
    ChainRec.share_of_uncharged rfl w p
  cases hc : s.recs[n].life.charged with
  | none =>
    obtain ⟨hblocks, hchains⟩ := State.vacate_uncharged hc
    refine h.of_record (s.vacate_recs n) (fun p => ?_) fun p => ?_
    · rw [ChainRec.share_of_uncharged hc, hnone, hblocks]
    · rw [ChainRec.share_of_uncharged hc, hnone, hchains]
  | some q =>
    obtain ⟨hblocks, hchains⟩ := State.vacate_charges hc
    obtain ⟨hcoverb, hcoverc⟩ := h.covers hc
    refine h.of_record (s.vacate_recs n) (fun p => ?_) fun p => ?_
    · rw [ChainRec.share_of_charged hc, hnone, hblocks]
      exact get_set_sub hcoverb p
    · rw [ChainRec.share_of_charged hc, hnone, hchains]
      exact get_set_sub hcoverc p

/-! ### Growth -/

theorem charged_of_owner {l : Life} {p : Port} (h : l.owner = some p) : l.charged = some p := by
  cases l with
  | vacant | delivering => simp [Life.owner] at h
  | _ => exact h

/-- A record's length plays no part in the charges. -/
theorem CountersInv.setLength {s : State} (h : CountersInv s) (n : ChainNo) (len : Nat) :
    CountersInv (s.setRec n { s.recs[n] with length := len }) :=
  h.setRec rfl rfl

theorem CountersInv.lengthen {s : State} (h : CountersInv s) (n : ChainNo) (len : Nat) :
    CountersInv (s.lengthen n len) :=
  (h.setLength n len).frame rfl

theorem CountersInv.appendAccept {s : State} (h : CountersInv s) (p : Port) (st : Stream) (x : Byte) :
    CountersInv (s.appendAccept p st x) :=
  (h.setLength st.ref.num (s.recs[st.ref.num].length + 1)).frame rfl

theorem CountersInv.allocate {s t : State} {k : Nat} {bs : List Nat} (h : CountersInv s)
    (halloc : s.allocate k = some (bs, t)) : CountersInv t ∧ t.recs = s.recs := by
  obtain ⟨-, -, rfl⟩ := allocate_some halloc
  exact ⟨h.congr rfl rfl rfl, rfl⟩

/-- Blocks that join a record are charged to its port (R38, R44). -/
theorem CountersInv.grow {s : State} {n : ChainNo} {p : Port} (h : CountersInv s)
    (hp : s.recs[n].life.charged = some p) (bs : List Nat) : CountersInv (s.grow n p bs) := by
  refine h.of_record (n := n) (r := { s.recs[n] with blocks := s.recs[n].blocks ++ bs }) rfl (fun q => ?_) fun q => ?_
  all_goals
    rw [ChainRec.share_of_charged hp,
      ChainRec.share_of_charged (r := { s.recs[n] with blocks := s.recs[n].blocks ++ bs }) hp]
  · have hgrown : (s.grow n p bs).chBlocks[q] = s.chBlocks[q] + if p = q then bs.length else 0 :=
      get_set_add s.chBlocks p q bs.length
    rw [hgrown]
    simp only [ChainRec.blockCount, List.length_append]
    split <;> omega
  · have hsame : (s.grow n p bs).chChains = s.chChains := set_get s.chChains p
    rw [hsame]
    rfl

theorem CountersInv.extendChain {s : State} {n : ChainNo} {p : Port} (count : Word) (h : CountersInv s)
    (ho : s.recs[n].life.owner = some p) : CountersInv (extendChain p n count s).1 := by
  obtain e | ⟨len, -, -, ⟨-, e⟩ | ⟨bs, t, halloc, -, e⟩⟩ := extendChain_cases p n count s <;> rw [e]
  · exact h
  · exact h.lengthen n len
  · obtain ⟨ht, hrecs⟩ := h.allocate halloc
    exact (ht.grow (by rw [hrecs]; exact charged_of_owner ho) bs).lengthen n len

theorem CountersInv.appendByte {s : State} {p : Port} {st : Stream} (x : Byte) (h : CountersInv s)
    (hopen : ∃ l, s.recs[st.ref.num].life = .opened p l) : CountersInv (s.appendByte p st x) := by
  obtain ⟨l, hl⟩ := hopen
  obtain ⟨why, e⟩ | ⟨-, e⟩ | ⟨-, -, bs, t, halloc, e⟩ := appendByte_cases p st x s <;> rw [e]
  · exact h.frame rfl
  · exact h.appendAccept p st x
  · obtain ⟨ht, hrecs⟩ := h.allocate halloc
    exact (ht.grow (by rw [hrecs, hl]; rfl) bs).appendAccept p st x

/-! ### Clearing and device reset -/

/-- The Clear Engine moves blocks that no record holds. -/
theorem CountersInv.clearingStart {s : State} (h : CountersInv s) : Leaves CountersInv (execClearingStart s) := by
  unfold execClearingStart
  split <;> exact (leaves_next _ _).mpr (h.congr rfl rfl rfl)

theorem CountersInv.clearLineWrite {s : State} (h : CountersInv s) : Leaves CountersInv (execClearLineWrite s) := by
  unfold execClearLineWrite
  split
  · split
    · simp
    split
    · refine (leaves_next _ _).mpr (h.congr ?_ ?_ ?_) <;> simp [State.fillLine]
    · refine (leaves_next _ _).mpr (h.congr ?_ ?_ ?_) <;> simp [State.completeClearing, State.fillLine]
  · simpa using h

theorem countersInv_deviceReset (s : State) (resetn : Bool) : CountersInv (s.deviceReset resetn) :=
  ((chargesInv_iff _).mp chargesInv_reset).2.congr rfl rfl rfl

/-- What the charges survive; the agreement of the PIUs tells that an append's record is charged to the port. -/
theorem countersInv_stock : StockInv True CountersInv where
  frame hs h := h.frame hs
  relabel h _ _ hc := h.setRec hc rfl
  openAt p tag h hv := h.openAt p tag hv
  adopt p h hd := h.adopt p hd
  vacate n h := h.vacate n
  extend count h ho := h.extendChain count ho
  append x h hopen := h.appendByte x (hopen trivial)
  write _ _ h := h.congr rfl rfl rfl
  clearingStart h := h.clearingStart
  clearLineWrite h := h.clearLineWrite
  initPass h := h.congr rfl rfl rfl
  deviceReset resetn _ := countersInv_deviceReset _ resetn

end Sys2Proof.Machine

namespace Sys2Proof.Proofs
open Machine

/-- Settles O54: each operation moves a record's share and the counters alike, beside the PIUs' agreement with the
records, which keeps an append to a record of its own port. -/
theorem chargesAgree : Obligations.ChargesAgree := by
  intro s t h hs
  rw [chargesInv_iff] at hs ⊢
  obtain ⟨hpius, hcounters⟩ := hs
  obtain ⟨hpius', hcounters'⟩ := step_kept countersInv_stock ⟨fun _ => hpius, hcounters⟩ t h
  exact ⟨hpius' trivial, hcounters'⟩

end Sys2Proof.Proofs
end

section
/-! PROOFS. Attention: the request mask bit by bit, the top reason and the ATN line (R124, R125, R129), the two
attention commands (R130, R131), and the copies of the three status queries (R74, R122, R133). -/

namespace Sys2Proof.Machine

/-! ### Reason masks (R124, R129) -/

theorem reasonMask_eq_zero {m : ReasonMask} : m = 0 ↔ ∀ k : Fin 6, m.getLsbD k.val = false :=
  ⟨fun h k => by simp [h], fun h => BitVec.eq_of_getLsbD_eq fun i hi => by simpa using h ⟨i, hi⟩⟩

/-- The edge reasons are the bits from 2 on. -/
theorem edgeMask_getLsbD : ∀ k : Fin 6, edgeMask.getLsbD k.val = decide (2 ≤ k.val) := by
  decide

theorem highest_le (m : ReasonMask) : highest m ≤ 6 := by
  unfold highest
  split_ifs <;> omega

/-- No reason of a mask ranks above the highest. -/
theorem le_highest {m : ReasonMask} {k : Fin 6} (h : m.getLsbD k.val = true) : k.val + 1 ≤ highest m := by
  unfold highest
  fin_cases k <;> dsimp only at h ⊢ <;> split_ifs <;> omega

/-- The highest reason of a mask is one of its reasons. -/
theorem getLsbD_of_highest {m : ReasonMask} {k : Fin 6} (h : highest m = k.val + 1) : m.getLsbD k.val = true := by
  unfold highest at h
  split_ifs at h <;> rwa [← Nat.succ.inj h]

theorem highest_eq_zero {m : ReasonMask} : highest m = 0 ↔ m = 0 := by
  refine ⟨fun h => reasonMask_eq_zero.mpr fun k => ?_, fun h => h ▸ rfl⟩
  rw [← Bool.not_eq_true]
  intro hk
  have := le_highest hk
  omega

theorem highest_eq_succ {m : ReasonMask} {k : Fin 6} :
    highest m = k.val + 1 ↔ m.getLsbD k.val = true ∧ ∀ j : Fin 6, k < j → ¬m.getLsbD j.val = true := by
  refine ⟨fun h => ⟨getLsbD_of_highest h, fun j hkj hj => ?_⟩, fun ⟨hk, habove⟩ => ?_⟩
  · have := le_highest hj
    omega
  · have hle := le_highest hk
    have hsix := highest_le m
    obtain ⟨j, hj⟩ : ∃ j : Fin 6, highest m = j.val + 1 := ⟨⟨highest m - 1, by omega⟩, by simp; omega⟩
    have hjk : ¬k < j := fun hkj => habove j hkj (getLsbD_of_highest hj)
    omega

/-! ### Requests and the line (R124, R125, R129) -/

/-- The levels stand in the two lowest bits, each following its queue. -/
theorem State.levels_getLsbD (s : State) (p : Port) (k : Nat) :
    (s.levels p).getLsbD k =
      (decide (k = 0) && !s.inqs[p].entries.isEmpty || decide (k = 1) && !s.notqs[p].isEmpty) := by
  unfold State.levels
  cases s.inqs[p].entries.isEmpty <;> cases s.notqs[p].isEmpty <;>
    simp [Reason.bit, Reason.code, BitVec.getLsbD_twoPow, eq_comm]

theorem State.requests_getLsbD (s : State) (p : Port) (k : Fin 6) :
    (s.requests p).getLsbD k.val =
      (s.edges[p].getLsbD k.val && decide (2 ≤ k.val) || (s.levels p).getLsbD k.val) := by
  rw [State.requests, BitVec.getLsbD_or, BitVec.getLsbD_and, edgeMask_getLsbD]

theorem State.requests_inbound (s : State) (p : Port) :
    (s.requests p).getLsbD 0 = true ↔ s.inqs[p].entries ≠ [] := by
  refine (Bool.eq_iff_iff.mp (s.requests_getLsbD p 0)).trans ?_
  rw [State.levels_getLsbD]
  simp [-Fin.getElem_fin]

theorem State.requests_notice (s : State) (p : Port) : (s.requests p).getLsbD 1 = true ↔ s.notqs[p] ≠ [] := by
  refine (Bool.eq_iff_iff.mp (s.requests_getLsbD p 1)).trans ?_
  rw [State.levels_getLsbD]
  simp [-Fin.getElem_fin]

theorem State.requests_edge (s : State) (p : Port) {k : Fin 6} (hk : 2 ≤ k.val) :
    (s.requests p).getLsbD k.val = s.edges[p].getLsbD k.val := by
  have h0 : k.val ≠ 0 := by omega
  have h1 : k.val ≠ 1 := by omega
  rw [State.requests_getLsbD, State.levels_getLsbD]
  simp only [hk, h0, h1, decide_true, decide_false, Bool.and_true, Bool.false_and, Bool.or_false]

theorem State.atnLow_eq_false {s : State} {p : Port} : s.atnLow p = false ↔ s.requests p &&& s.enables[p] = 0 := by
  rw [State.atnLow, decide_eq_false_iff_not, not_not]

theorem State.atnLow_iff {s : State} {p : Port} :
    s.atnLow p = true ↔ ∃ k : Fin 6, (s.requests p).getLsbD k.val = true ∧ s.enables[p].getLsbD k.val = true := by
  rw [← Bool.not_eq_false, State.atnLow_eq_false, reasonMask_eq_zero]
  simp [-Fin.getElem_fin]

theorem State.topReason_eq_zero {s : State} {p : Port} : s.topReason p = 0 ↔ s.atnLow p = false :=
  highest_eq_zero.trans State.atnLow_eq_false.symm

theorem State.topReason_eq_succ {s : State} {p : Port} {k : Fin 6} :
    s.topReason p = k.val + 1 ↔
      (s.requests p).getLsbD k.val = true ∧ s.enables[p].getLsbD k.val = true ∧
      ∀ j : Fin 6, k < j → ¬((s.requests p).getLsbD j.val = true ∧ s.enables[p].getLsbD j.val = true) := by
  rw [State.topReason, highest_eq_succ]
  simp only [BitVec.getLsbD_and, Bool.and_eq_true, and_assoc]

/-- With no reason enabled the line is released (R129, R134). -/
theorem State.atnLow_of_enables_zero {s : State} {p : Port} (h : s.enables[p] = 0) : s.atnLow p = false :=
  State.atnLow_eq_false.mpr (by rw [h]; exact BitVec.and_zero)

/-! ### Set Enables and Acknowledge Attention (R130, R131) -/

section Commands
variable {s : State} {p : Port} {m : Byte}

theorem execSetEnables_rise (h : Waits s p .setEnables [m]) :
    exec (.setEnables p .rise) s =
      .next ((setEnables p m (s.deselect p)).1.record p 0x39 (setEnables p m (s.deselect p)).2) :=
  recordedBeat_rise h (by decide) _

theorem execAcknowledgeAttention_rise (h : Waits s p .acknowledgeAttention [m]) :
    exec (.acknowledgeAttention p .rise) s =
      .next ((acknowledgeAttention p m (s.deselect p)).1.record p 0x3A
        (acknowledgeAttention p m (s.deselect p)).2) :=
  recordedBeat_rise h (by decide) _

theorem setEnables_range (h : 64 ≤ m.toNat) : setEnables p m s = (s, ⟨.range, 0, 0⟩) :=
  if_pos h

theorem setEnables_ok (h : m.toNat < 64) :
    setEnables p m s = (s.setEnables p (m.setWidth 6), ⟨.ok, m.setWidth 16, (s.requests p).setWidth 16⟩) :=
  if_neg (Nat.not_le.mpr h)

theorem acknowledgeAttention_range (h : 64 ≤ m.toNat) : acknowledgeAttention p m s = (s, ⟨.range, 0, 0⟩) :=
  if_pos h

/-- The requests left after an acknowledgement: the level bits as they were, the edge bits without the named ones. -/
theorem State.acknowledge_requests (s : State) (p : Port) (mask : ReasonMask) :
    (s.acknowledge p mask).requests p = ((s.edges[p] &&& ~~~mask) &&& edgeMask) ||| s.levels p := by
  have hedges : (s.acknowledge p mask).edges[p] = s.edges[p] &&& ~~~mask := by
    rw [State.acknowledge, get_set, if_pos rfl]
  rw [State.requests, hedges]
  rfl

theorem acknowledgeAttention_ok (h : m.toNat < 64) :
    acknowledgeAttention p m s =
      (s.acknowledge p (m.setWidth 6),
        ⟨.ok, (s.edges[p] &&& edgeMask &&& m.setWidth 6).setWidth 16,
          (((s.edges[p] &&& ~~~(m.setWidth 6)) &&& edgeMask) ||| s.levels p).setWidth 16⟩) := by
  rw [acknowledgeAttention, if_neg (Nat.not_le.mpr h), State.acknowledge_requests]

end Commands

/-! ### The status queries (R74, R122, R133) -/

/-- A query without operands makes its copy at the command byte, from an enabled port. -/
theorem queryBeat_code {c : Cmd} {p : Port} {s : State} (h : AtCommand s p) (hc : c.operandCount = 0)
    (he : s.isEnabled p = true) (always : Bool) (copy : List Byte → State → List Byte × List Byte) :
    queryBeat c p .code always copy s = .next (s.setLink p (.body c [] (.copy (copy [] s).1 (copy [] s).2))) := by
  unfold queryBeat
  rw [linkBeat_code h, if_pos hc]
  simp [he]

section Status
variable {s : State} {p : Port} (h : AtCommand s p) (he : s.isEnabled p = true)
include h he

theorem execReadAttention_code :
    exec (.readAttention p .code) s =
      .next (s.setLink p (.body .readAttention [] (.copy (s.attentionBytes p) []))) :=
  queryBeat_code h rfl he false _

theorem execReadQueueStatus_code :
    exec (.readQueueStatus p .code) s =
      .next (s.setLink p (.body .readQueueStatus [] (.copy (s.queueBytes p) []))) :=
  queryBeat_code h rfl he false _

theorem execReadFreeStatus_code :
    exec (.readFreeStatus p .code) s = .next (s.setLink p (.body .readFreeStatus [] (.copy (s.freeBytes p) []))) :=
  queryBeat_code h rfl he false _

end Status

/-- The block that the Clear Engine clears counts with those of the Clear Queue (R20). -/
theorem State.clearingCount_eq (s : State) : s.clearingCount = s.clearQ.length + s.clearEng.toList.length := by
  unfold State.clearingCount
  cases s.clearEng <;> rfl

end Sys2Proof.Machine

namespace Sys2Proof.Proofs
open Machine

/-- Settles O11: the copy of each query is made at the command byte, in the layout of its record. -/
theorem statusQueriesCopy : Obligations.StatusQueriesCopy := by
  intro s p h he
  refine ⟨execReadAttention_code h he, execReadQueueStatus_code h he, ?_⟩
  rw [execReadFreeStatus_code h he, State.freeBytes, State.clearingCount_eq]

/-- Settles O42: the requests bit by bit, the line and the top reason by the reasons both requested and enabled. -/
theorem atnLine : Obligations.AtnLine := by
  refine ⟨fun s p => ⟨s.requests_inbound p, s.requests_notice p, fun _ => s.requests_edge p, State.atnLow_iff,
    State.topReason_eq_zero, fun _ => State.topReason_eq_succ⟩, fun s p h => ?_⟩
  obtain ⟨-, -, -, -, -, -, -, -, -, -, -, -, -, hports⟩ := h
  obtain ⟨-, -, -, -, henables, -⟩ := hports p
  exact State.atnLow_of_enables_zero henables

/-- Settles O43: a mask of 64 or more names no reason; any other is written, or its edge requests are cleared. -/
theorem enablesAndAcknowledge : Obligations.EnablesAndAcknowledge := by
  refine fun s p m => ⟨fun h => ?_, fun h => ?_⟩
  · rw [execSetEnables_rise h]
    refine ⟨fun hm => ?_, fun hm => ?_⟩
    · rw [setEnables_range hm, State.deselect_record]
    · rw [setEnables_ok hm, State.record_deselected (s := s)] <;> rfl
  · rw [execAcknowledgeAttention_rise h]
    refine ⟨fun hm => ?_, fun hm => ?_⟩
    · rw [acknowledgeAttention_range hm, State.deselect_record]
    · rw [acknowledgeAttention_ok hm, State.record_deselected (s := s)] <;> rfl

end Sys2Proof.Proofs
end

section
/-! PROOFS. Each chain counter beside its record, across every operation and across a step (R104 to R106). -/

namespace Sys2Proof.Machine

/-! ### One counter (R104) -/

/-- A counter that runs, at 1 to 255, or has signalled belongs to a record that is not VACANT, in its present generation. -/
def LeaseOk (r : ChainRec) : Lease → Prop
  | .none => True
  | .running c g => (1 ≤ c ∧ c ≤ 255) ∧ g = r.gen ∧ r.life ≠ .vacant
  | .raised g => g = r.gen ∧ r.life ≠ .vacant

/-- A record changes, in its generation and not into VACANT. -/
theorem LeaseOk.relabel {r r' : ChainRec} {c : Lease} (h : LeaseOk r c) (hgen : r'.gen = r.gen)
    (hlive : r.life ≠ .vacant → r'.life ≠ .vacant) : LeaseOk r' c := by
  cases c with
  | none => trivial
  | running c g =>
    obtain ⟨hcount, hg, hv⟩ := h
    exact ⟨hcount, hg.trans hgen.symm, hlive hv⟩
  | raised g =>
    obtain ⟨hg, hv⟩ := h
    exact ⟨hg.trans hgen.symm, hlive hv⟩

/-- The tick counts down to 1 and then signals (R106). -/
theorem LeaseOk.tick {r : ChainRec} {c : Lease} (h : LeaseOk r c) : LeaseOk r c.tick := by
  cases c with
  | none => exact h
  | raised g => exact h
  | running c g =>
    obtain ⟨⟨hpos, hle⟩, howner⟩ := h
    unfold Lease.tick
    dsimp only
    split
    · exact howner
    · next hmore => exact ⟨⟨by omega, by omega⟩, howner⟩

/-- The two lease lengths of settings in range are one byte each (R135). -/
theorem Settings.leases_le {c : Settings} (h : c.inRange) : (∀ o : Port, c.ownerLease o ≤ 255) ∧ c.deliveryLease ≤ 255 := by
  refine ⟨fun o => ?_, ?_⟩
  · have ho := o.isLt
    have hlegal : legalSetting (12 + o.val + 1) (c.ownerLease o) = true := h ⟨12 + o.val, by omega⟩
    simp [legalSetting] at hlegal
    omega
  · have hlegal : legalSetting 17 c.deliveryLease = true := h 16
    simpa [legalSetting] using hlegal

theorem leaseOk_ofLength {r : ChainRec} {len : Nat} (hlive : r.life ≠ .vacant) (hlen : len ≤ 255) :
    LeaseOk r (.ofLength len r.gen) := by
  unfold Lease.ofLength
  split
  · trivial
  · exact ⟨⟨by omega, hlen⟩, rfl, hlive⟩

/-- A load by the record's state, under settings in range (R105). -/
theorem leaseOk_loaded {c : Settings} (h : c.inRange) (r : ChainRec) :
    LeaseOk r (.ofLength (leaseLength c r.life) r.gen) := by
  obtain ⟨howner, hdelivery⟩ := Settings.leases_le h
  cases hl : r.life with
  | vacant => trivial
  | opened o l => exact leaseOk_ofLength (by simp [hl]) (howner o)
  | sealing o l => exact leaseOk_ofLength (by simp [hl]) (howner o)
  | sealed o l k => exact leaseOk_ofLength (by simp [hl]) (howner o)
  | delivering d l k => exact leaseOk_ofLength (by simp [hl]) hdelivery

/-! ### All counters -/

/-- R104 for every record and its counter. -/
def LeasesAgree (s : State) : Prop := ∀ n : ChainNo, LeaseOk s.recs[n] s.leases[n]

theorem leasesInv_iff (s : State) : LeasesInv s ↔ SettingsInv s ∧ LeasesAgree s := by
  refine and_congr_right fun _ => ⟨fun ⟨hrunning, hraised⟩ n => ?_, fun h => ⟨fun n c g hc => ?_, fun n g hg => ?_⟩⟩
  · cases hl : s.leases[n] with
    | none => trivial
    | running c g =>
      obtain ⟨hpos, hle, howner⟩ := hrunning n c g hl
      exact ⟨⟨hpos, hle⟩, howner⟩
    | raised g => exact hraised n g hl
  · have hn := h n
    rw [hc] at hn
    obtain ⟨⟨hpos, hle⟩, howner⟩ := hn
    exact ⟨hpos, hle, howner⟩
  · have hn := h n
    rwa [hg] at hn

theorem LeasesAgree.congr {s t : State} (h : LeasesAgree s) (hrecs : t.recs = s.recs) (hleases : t.leases = s.leases) :
    LeasesAgree t := by
  unfold LeasesAgree
  rw [hrecs, hleases]
  exact h

/-- A record and its counter are written together. -/
theorem LeasesAgree.write {s t : State} {n : ChainNo} {r : ChainRec} {c : Lease} (h : LeasesAgree s)
    (hrecs : t.recs = s.recs.set n r) (hleases : t.leases = s.leases.set n c) (hok : LeaseOk r c) : LeasesAgree t := by
  intro m
  rw [hrecs, hleases, get_set, get_set]
  split
  · exact hok
  · exact h m

/-- A record is written in its generation, its counter goes on. -/
theorem LeasesAgree.setRec {s : State} {n : ChainNo} {r : ChainRec} (h : LeasesAgree s) (hgen : r.gen = s.recs[n].gen)
    (hlive : s.recs[n].life ≠ .vacant → r.life ≠ .vacant) : LeasesAgree (s.setRec n r) :=
  h.write (c := s.leases[n]) rfl (set_get _ _).symm ((h n).relabel hgen hlive)

/-- A counter is written, its record stays. -/
theorem LeasesAgree.setLease {s : State} {n : ChainNo} {c : Lease} (h : LeasesAgree s) (hok : LeaseOk s.recs[n] c) :
    LeasesAgree (s.setLease n c) :=
  h.write (set_get _ _).symm rfl hok

theorem LeasesAgree.loadLease {s : State} (h : LeasesAgree s) (hrange : s.committed.inRange) (n : ChainNo) :
    LeasesAgree (s.loadLease n) :=
  h.setLease (leaseOk_loaded hrange _)

/-! ### Vacate, departure, expiry, completion, withdrawal, commit -/

/-- The counter of a vacated record is NONE (R9). -/
theorem LeasesAgree.vacate {s : State} (h : LeasesAgree s) (n : ChainNo) : LeasesAgree (s.vacate n) :=
  h.write (s.vacate_recs n) (s.vacate_leases n) trivial

theorem LeasesAgree.depart {s : State} (h : LeasesAgree s) (p : Port) (how : Departure) (n : ChainNo) :
    LeasesAgree (s.depart p how n) := by
  unfold State.depart
  split
  · next d l k _ =>
    have hleft : LeasesAgree (s.setRec n { s.recs[n] with life := .delivering (d.leave p how) l k }) :=
      h.setRec rfl fun _ => nofun
    have hnotified (q : Port) (m : Notice) :
        LeasesAgree (State.offer q m (s.setRec n { s.recs[n] with life := .delivering (d.leave p how) l k })) :=
      hleft.congr rfl rfl
    dsimp only
    split
    · exact (hnotified _ _).vacate n
    · exact hleft
  all_goals exact h

theorem LeasesAgree.expire {s : State} (h : LeasesAgree s) (n : ChainNo) : LeasesAgree (s.expire n) :=
  LeasesAgree.vacate (h.congr (by simp) (by simp)) n

theorem LeasesAgree.complete {s : State} (h : LeasesAgree s) (run : SealRun) : LeasesAgree (s.complete run) := by
  unfold State.complete
  dsimp only
  split
  · next o l _ =>
    split
    · have hsealed : LeasesAgree (s.setRec run.ref.num { s.recs[run.ref.num] with life := .sealed o l run.reg }) :=
        h.setRec rfl fun _ => nofun
      exact hsealed.congr rfl rfl
    · exact h
  all_goals exact h

theorem LeasesAgree.withdraw {s : State} (h : LeasesAgree s) (p : Port) (res : ResultRec) :
    LeasesAgree (s.withdraw p res) := by
  have hchains : LeasesAgree ((s.withdrawOrder p).foldl (State.withdrawFrom p) s) := by
    generalize s.withdrawOrder p = l
    induction l generalizing s with
    | nil => exact h
    | cons n l ih =>
      refine ih ?_
      unfold State.withdrawFrom
      split
      · exact h.vacate n
      · exact h.depart p _ n
  exact hchains.congr rfl rfl

theorem LeasesAgree.withdrawAll {s : State} (h : LeasesAgree s) (m : PortSet) : LeasesAgree (s.withdrawAll m) := by
  unfold State.withdrawAll
  generalize s.portOrder m = l
  induction l generalizing s with
  | nil => exact h
  | cons q l ih => exact ih (h.withdraw q disabledResult)

/-- A counter loaded under the record replaced goes on with its count. -/
theorem LeasesAgree.commit {s : State} (h : LeasesAgree s) (p : Port) (staged : Settings) :
    LeasesAgree (s.commit p staged) := by
  have happlied : LeasesAgree (s.applySettings staged) := h.congr rfl rfl
  exact (happlied.withdrawAll (s.disables staged)).congr rfl rfl

/-! ### The operations that load a counter (R105) -/

section Loads
variable {s : State} (h : LeasesAgree s) (hrange : s.committed.inRange)
include h

theorem LeasesAgree.appendByte (p : Port) (st : Stream) (x : Byte) : LeasesAgree (s.appendByte p st x) := by
  have haccept {t : State} (ht : LeasesAgree t) : LeasesAgree (t.appendAccept p st x) := by
    have hlonger : LeasesAgree (t.setRec st.ref.num
        { t.recs[st.ref.num] with length := t.recs[st.ref.num].length + 1 }) := ht.setRec rfl id
    exact hlonger.congr rfl rfl
  obtain ⟨why, e⟩ | ⟨-, e⟩ | ⟨-, -, bs, t, halloc, e⟩ := appendByte_cases p st x s <;> rw [e]
  · exact h.congr rfl rfl
  · exact haccept h
  · obtain ⟨-, -, rfl⟩ := allocate_some halloc
    refine haccept ?_
    have hgrown : LeasesAgree (s.setRec st.ref.num
        { s.recs[st.ref.num] with blocks := s.recs[st.ref.num].blocks ++ bs }) := h.setRec rfl id
    exact hgrown.congr rfl rfl

include hrange

/-- A record is written in its generation and its counter loaded by the state it now has. -/
theorem LeasesAgree.setRec_loadLease {n : ChainNo} {r : ChainRec} (hgen : r.gen = s.recs[n].gen)
    (hlive : s.recs[n].life ≠ .vacant → r.life ≠ .vacant) : LeasesAgree ((s.setRec n r).loadLease n) :=
  (h.setRec hgen hlive).loadLease hrange n

theorem LeasesAgree.openAt (n : ChainNo) (p : Port) (tag : Word) : LeasesAgree (s.openAt n p tag) := by
  have hopened := h.setRec_loadLease hrange (n := n)
    (r := { gen := s.recs[n].gen, life := .opened p ⟨tag, 0⟩, length := 0, blocks := [] }) rfl fun _ => nofun
  exact hopened.congr rfl rfl

theorem LeasesAgree.extendChain (p : Port) (n : ChainNo) (count : Word) : LeasesAgree (extendChain p n count s).1 := by
  obtain e | ⟨len, -, -, ⟨-, e⟩ | ⟨bs, t, halloc, -, e⟩⟩ := extendChain_cases p n count s <;> rw [e]
  · exact h
  · exact h.setRec_loadLease hrange rfl id
  · obtain ⟨-, -, rfl⟩ := allocate_some halloc
    have hgrown : LeasesAgree (s.setRec n { s.recs[n] with blocks := s.recs[n].blocks ++ bs }) := h.setRec rfl id
    have hcharged : LeasesAgree (((s.freeFalls (s.free.drop bs.length)).grow n p bs)) := hgrown.congr rfl rfl
    exact hcharged.setRec_loadLease hrange rfl id

theorem LeasesAgree.placeSeal (n : ChainNo) (p : Port) (l : Label) : LeasesAgree (s.placeSeal n p l) := by
  have hsealing := h.setRec_loadLease hrange (r := { s.recs[n] with life := .sealing p l }) rfl fun _ => nofun
  exact hsealing.congr rfl rfl

theorem LeasesAgree.unseal (n : ChainNo) (p : Port) (l : Label) : LeasesAgree (s.unseal n p l) := by
  have hcancelled : LeasesAgree (s.cancelIfSealing n) := h.congr (by simp) (by simp)
  refine hcancelled.setRec_loadLease (by simpa using hrange) ?_ fun _ => nofun
  rw [State.cancelIfSealing_recs]

theorem LeasesAgree.handChain (p : Port) (n : ChainNo) (mask : Byte) : LeasesAgree (handChain p n mask s).1 := by
  unfold Machine.handChain
  dsimp only
  split
  · exact h
  split
  · exact h
  split
  · exact h
  · have hhanded (d : Delivery) (l : Label) (k : Word) :
        LeasesAgree ((s.setRec n { s.recs[n] with life := .delivering d l k }).loadLease n) :=
      h.setRec_loadLease hrange rfl fun _ => nofun
    exact (hhanded (.start p (mask.setWidth 4)) _ _).congr rfl rfl

theorem LeasesAgree.takeLive (p : Port) (ref : ChainRef) : LeasesAgree (s.takeLive p ref) := by
  unfold State.takeLive
  dsimp only
  split
  · split
    · exact h.setRec_loadLease hrange rfl fun _ => nofun
    · exact h
  all_goals exact h

theorem LeasesAgree.takeInbound (p : Port) (b : Body) : LeasesAgree (takeInbound p b s).1 := by
  have hremoved (q : InQueue) : LeasesAgree (s.setInq p q) := h.congr rfl rfl
  unfold Machine.takeInbound
  split
  · split
    · exact h
    split
    · unfold takeHead
      dsimp only
      split
      · exact hremoved _
      · exact (hremoved _).takeLive hrange p _
    · exact h
  all_goals exact h

theorem LeasesAgree.releaseChain (p : Port) (n : ChainNo) (x : Byte) : LeasesAgree (releaseChain p n x s).1 := by
  unfold Machine.releaseChain State.releaseBy
  split
  · exact h
  · next how _ _ _ =>
    dsimp only
    split
    · exact h.depart p how n
    · exact (h.depart p how n).loadLease (by simpa using hrange) n
  · exact h

theorem LeasesAgree.adoptChain (p : Port) (n : ChainNo) : LeasesAgree (adoptChain p n s).1 := by
  unfold Machine.adoptChain
  split
  · next d l k _ =>
    repeat' split
    case isFalse.isFalse.isFalse.isFalse =>
      have hadopted := h.setRec_loadLease hrange (r := { s.recs[n] with life := .sealed p ⟨l.tag, l.hops + 1⟩ k }) rfl
        fun _ => nofun
      exact hadopted.congr rfl rfl
    all_goals exact h
  all_goals exact h

theorem LeasesAgree.recallChain (n : ChainNo) : LeasesAgree (recallChain n s).1 := by
  unfold Machine.recallChain
  split
  · next d l k _ =>
    split
    · exact h
    · have hrecalled := h.setRec_loadLease hrange (r := { s.recs[n] with life := .sealed d.origin l k }) rfl
        fun _ => nofun
      exact hrecalled.congr rfl rfl
  all_goals exact h

end Loads

/-! ### Every row, and a step -/

theorem SettingsInv.committed_inRange {s : State} (h : SettingsInv s) : s.committed.inRange := h.1

/-- A load takes its length from a committed record in range, by the invariant of the settings. -/
theorem LeasesAgree.linkEffect {s t : State} (h : LeasesAgree s) (hs : SettingsInv s) (ht : LinkEffect s t) :
    LeasesAgree t := by
  have hrange {u : State} (hu : LinkEffect s u) : u.committed.inRange := (hs.linkEffect hu).committed_inRange
  induction ht with
  | nothing => exact h
  | loadLease hu _ ih => exact ih.loadLease (hrange hu) _
  | openAt p tag hu _ ih => exact ih.openAt (hrange hu) _ p tag
  | extendChain count hu _ ih => exact ih.extendChain (hrange hu) _ _ count
  | appendByte p st x _ ih => exact ih.appendByte p st x
  | vacate _ _ ih => exact ih.vacate _
  | sealChain l hu _ ih => exact ih.placeSeal (hrange hu) _ _ l
  | unsealChain l hu _ ih => exact ih.unseal (hrange hu) _ _ l
  | handChain mask hu _ ih => exact ih.handChain (hrange hu) _ _ mask
  | takeInbound p b hu ih => exact ih.takeInbound (hrange hu) p b
  | releaseChain x hu _ ih => exact ih.releaseChain (hrange hu) _ _ x
  | adoptChain hu _ ih => exact ih.adoptChain (hrange hu) _ _
  | recallChain hu _ ih => exact ih.recallChain (hrange hu) _
  | commit _ _ _ ih => exact ih.commit _ _
  | withdraw p res _ ih => exact ih.withdraw p res
  | setPiu | raise | dropNotice | writeEnables | clearEdges | grantClaim | writeStaged | endClaim =>
    next ih => exact ih.congr rfl rfl

theorem chains_of_units {s t : State} (h : t.units = s.units) : t.recs = s.recs ∧ t.leases = s.leases :=
  ⟨congrArg (·.1) h, congrArg (·.2.1) h⟩

theorem LeasesAgree.partEffect {s t : State} (h : LeasesAgree s) (ht : PartEffect s t) : LeasesAgree t := by
  cases ht with
  | keeps ht =>
    obtain ⟨hrecs, hleases⟩ := chains_of_units ht
    exact h.congr hrecs hleases
  | deviceReset resetn => exact LeasesAgree.congr ((leasesInv_iff _).mp leasesInv_reset).2 rfl rfl
  | tick =>
    intro n
    have hn : s.tick.leases[n] = s.leases[n].tick := by simp [State.tick]
    rw [hn]
    exact (h n).tick
  | @complete run => exact (h.complete run).congr rfl rfl
  | expire => exact h.expire _
  | dropExpiry => exact h.setLease trivial
  | lapse => unfold State.lapse; split <;> exact h.congr rfl rfl
  | count => exact h.congr rfl rfl

theorem step_leases {s : State} (h : LeasesInv s) : Leaves LeasesInv (step s) := by
  refine step_keeps (fun s rest h => ?_) (fun s t h ht => ?_) (fun s t h ht => ?_) h <;>
    rw [leasesInv_iff] at h ⊢ <;> obtain ⟨hsettings, hleases⟩ := h
  · exact ⟨hsettings.congr rfl, hleases.congr rfl rfl⟩
  · exact ⟨hsettings.linkEffect ht, hleases.linkEffect hsettings ht⟩
  · exact ⟨hsettings.partEffect ht, hleases.partEffect ht⟩

end Sys2Proof.Machine

namespace Sys2Proof.Proofs
open Machine

/-- Settles O57: a counter is loaded by its record's state from settings in range, or counts down, and a vacate leaves it
NONE. -/
theorem timersAndSettingsKept : Obligations.TimersAndSettingsKept :=
  fun _ t ht h => step_leases h t ht

end Sys2Proof.Proofs
end

section
/-! PROOFS. The copies of Read Settings, Identify and Read Result (R144, R160, R161). -/

namespace Sys2Proof.Machine

/-! ### The queries that every port answers (R151) -/

/-- A query without operands that a disabled port is answered too makes its copy at the command byte. -/
theorem queryBeat_code_always {c : Cmd} {p : Port} {s : State} (h : AtCommand s p) (hc : c.operandCount = 0)
    (copy : List Byte → State → List Byte × List Byte) :
    queryBeat c p .code true copy s = .next (s.setLink p (.body c [] (.copy (copy [] s).1 (copy [] s).2))) := by
  unfold queryBeat
  rw [linkBeat_code h, if_pos hc]
  rfl

/-- A query with one operand that a disabled port is answered too makes its copy at that byte. -/
theorem queryBeat_operand_always {c : Cmd} {p : Port} {s : State} (x : Byte) (h : AtOperand s p c [])
    (hc : c.operandCount = 1) (copy : List Byte → State → List Byte × List Byte) :
    queryBeat c p (.operand x) true copy s =
      .next (s.setLink p (.body c [x] (.copy (copy [x] s).1 (copy [x] s).2))) := by
  unfold queryBeat
  rw [linkBeat_operand x h (by omega), if_neg (by simp [hc])]
  rfl

theorem execReadSettings_operand {s : State} {p : Port} (x : Byte) (h : AtOperand s p .readSettings []) :
    exec (.readSettings p (.operand x)) s =
      .next (s.setLink p (.body .readSettings [x] (.copy (s.settingsBytes p x) []))) :=
  queryBeat_operand_always x h rfl _

theorem execIdentify_code {s : State} {p : Port} (h : AtCommand s p) :
    exec (.identify p .code) s = .next (s.setLink p (.body .identify [] (.copy (s.identifyBytes p) []))) :=
  queryBeat_code_always h rfl _

theorem execReadResult_code {s : State} {p : Port} (h : AtCommand s p) :
    exec (.readResult p .code) s =
      .next (s.setLink p (.body .readResult [] (.copy s.pius[p].result.bytes s.pius[p].result.bytes))) :=
  queryBeat_code_always h rfl _

/-! ### Who holds the claim (R136) -/

theorem State.stagedOf_holder {s : State} {p : Port} {staged : Settings} (h : s.claim = some ⟨p, staged⟩) :
    s.stagedOf p = some staged := by
  simp [State.stagedOf, h]

theorem State.stagedOf_none {s : State} {p : Port} (h : ∀ cl, s.claim = some cl → cl.holder ≠ p) :
    s.stagedOf p = none := by
  unfold State.stagedOf
  cases hcl : s.claim with
  | none => rfl
  | some cl => exact if_neg (h cl hcl)

/-! ### The record a selector names (R144) -/

theorem State.settingsBytes_committed (s : State) (p : Port) : s.settingsBytes p 0x00 = s.committed.bytes :=
  if_pos rfl

/-- Selector 01h reads the staged copy of the port that holds the claim. -/
theorem State.settingsBytes_one (s : State) (p : Port) :
    s.settingsBytes p 0x01 = ((s.stagedOf p).map Settings.bytes).getD [] := by
  have hselector : ¬(0x01 : Byte) = 0 := by decide
  simp only [State.settingsBytes, if_neg hselector, if_true, State.stagedOf]
  cases s.claim with
  | none => rfl
  | some cl =>
    dsimp only
    split <;> rfl

theorem State.settingsBytes_staged {s : State} {p : Port} {staged : Settings} (h : s.claim = some ⟨p, staged⟩) :
    s.settingsBytes p 0x01 = staged.bytes := by
  rw [State.settingsBytes_one, State.stagedOf_holder h]
  rfl

theorem State.settingsBytes_unclaimed {s : State} {p : Port} (h : ∀ cl, s.claim = some cl → cl.holder ≠ p) :
    s.settingsBytes p 0x01 = [] := by
  rw [State.settingsBytes_one, State.stagedOf_none h]
  rfl

theorem State.settingsBytes_other (s : State) (p : Port) {x : Byte} (h0 : x ≠ 0x00) (h1 : x ≠ 0x01) :
    s.settingsBytes p x = [] :=
  (if_neg h0).trans (if_neg h1)

/-- The ready flag of a transaction that opened with BS READY (R161). -/
theorem State.identifyBytes_ready {s : State} {p : Port} (h : s.pius[p].early = false) :
    s.identifyBytes p = [0x6A, 0x41, 0x01, 0x80 ||| b8 p.val] := by
  simp [-Fin.getElem_fin, State.identifyBytes, Config.identity, h]

end Sys2Proof.Machine

namespace Sys2Proof.Proofs
open Machine

/-- Settles O13: Read Settings by its selector, Identify and Read Result at the command byte, enabled port or not. -/
theorem settingsIdentityResultCopied : Obligations.SettingsIdentityResultCopied := by
  refine fun s p => ⟨fun x h => ?_, fun h => ⟨?_, execReadResult_code h⟩⟩
  · rw [execReadSettings_operand x h]
    refine ⟨fun hx => ?_, fun staged hx hcl => ?_, fun hx hcl => ?_, fun h0 h1 => ?_⟩
    · rw [hx, State.settingsBytes_committed, Settings.bytes]
    · rw [hx, State.settingsBytes_staged hcl, Settings.bytes]
    · rw [hx, State.settingsBytes_unclaimed hcl]
    · rw [State.settingsBytes_other s p h0 h1]
  · have ⟨_, _, hready, _, _⟩ := h
    rw [execIdentify_code h, State.identifyBytes_ready hready]

end Sys2Proof.Proofs
end

section
/-! PROOFS. The settings claim: Claim Settings, Abandon Settings, Write Setting (R137, R139, R143). -/

namespace Sys2Proof.Machine

/-! ### Claim Settings (R137) -/

section Claim
variable {s : State} {p : Port}

theorem execClaimSettings_rise (h : Waits s p .claimSettings []) :
    exec (.claimSettings p .rise) s =
      .next ((claimSettings p (s.deselect p)).1.record p 0x40 (claimSettings p (s.deselect p)).2) :=
  recordedBeat_rise h (by decide) _

theorem claimSettings_free (h : s.claim = none) : claimSettings p s = (s.grantClaim p, ⟨.ok, 32, 0⟩) := by
  simp only [claimSettings, h]
  rfl

theorem claimSettings_held {cl : Claim} (h : s.claim = some cl) (hp : cl.holder ≠ p) :
    claimSettings p s = (s, ⟨.claimHeld, w16 cl.holder.val, 0⟩) := by
  simp only [claimSettings, h, if_neg hp]

theorem claimSettings_own {cl : Claim} (h : s.claim = some cl) (hp : cl.holder = p) :
    claimSettings p s = (s, ⟨.wrongState, w16 p.val, 0⟩) := by
  simp only [claimSettings, h, if_pos hp]

/-! ### Abandon Settings (R143) -/

theorem execAbandonSettings_rise (h : Waits s p .abandonSettings []) :
    exec (.abandonSettings p .rise) s =
      .next ((abandonSettings p (s.deselect p)).1.record p 0x43 (abandonSettings p (s.deselect p)).2) :=
  recordedBeat_rise h (by decide) _

theorem abandonSettings_noClaim (h : s.stagedOf p = none) : abandonSettings p s = (s, ⟨.noClaim, 0, 0⟩) := by
  simp only [abandonSettings, h]

theorem abandonSettings_ok {staged : Settings} (h : s.stagedOf p = some staged) :
    abandonSettings p s = (s.endClaim, ⟨.ok, w16 (fieldsChanged staged s.committed), 0⟩) := by
  simp only [abandonSettings, h]
  rfl

/-! ### Write Setting (R139) -/

theorem execWriteSetting_rise {id hi lo : Byte} (h : Waits s p .writeSetting [id, hi, lo]) :
    exec (.writeSetting p .rise) s =
      .next ((writeSetting p id (hi ++ lo) (s.deselect p)).1.record p 0x41
        (writeSetting p id (hi ++ lo) (s.deselect p)).2) :=
  recordedBeat_rise h (by decide) _

/-- The range check of Write Setting is R135's table. -/
theorem fieldInRange_eq (i : Fin 23) (v : Word) : fieldInRange i v = legalSetting (i.val + 1) v.toNat := by
  fin_cases i <;> simp [fieldInRange, legalSetting]

/-- A field ID names a field exactly when it is that field's index and 1. -/
theorem fieldIndex_eq_some {id : Byte} {i : Fin 23} : fieldIndex id = some i ↔ id.toNat = i.val + 1 := by
  have hi := i.isLt
  unfold fieldIndex
  split
  · next h =>
    rw [Option.some.injEq, Fin.ext_iff]
    dsimp only
    omega
  · next h => exact ⟨nofun, fun e => absurd ⟨by omega, by omega⟩ h⟩

theorem writeSetting_noClaim {id : Byte} {v : Word} (h : s.stagedOf p = none) :
    writeSetting p id v s = (s, ⟨.noClaim, 0, 0⟩) := by
  simp only [writeSetting, h]

theorem writeSetting_range {id : Byte} {v : Word} {staged : Settings} (h : s.stagedOf p = some staged)
    (hlegal : legalSetting id.toNat v.toNat = false) :
    writeSetting p id v s = (s, ⟨.range, id.setWidth 16, v⟩) := by
  cases hi : fieldIndex id with
  | none => simp only [writeSetting, h, hi]
  | some i =>
    rw [fieldIndex_eq_some.mp hi, ← fieldInRange_eq] at hlegal
    simp only [writeSetting, h, hi, hlegal, Bool.false_eq_true, if_false]

theorem writeSetting_ok {id : Byte} {v : Word} {staged : Settings} {i : Fin 23} (h : s.stagedOf p = some staged)
    (hi : id.toNat = i.val + 1) (hlegal : legalSetting id.toNat v.toNat = true) :
    writeSetting p id v s = (s.writeStaged p staged i v, ⟨.ok, id.setWidth 16, v⟩) := by
  rw [hi, ← fieldInRange_eq] at hlegal
  simp only [writeSetting, h, fieldIndex_eq_some.mpr hi, hlegal, if_true]

end Claim

end Sys2Proof.Machine

namespace Sys2Proof.Proofs
open Machine

/-- Settles O44: the claim free, another port's or this port's; then the claim given up by its holder or by no holder. -/
theorem claimAndAbandon : Obligations.ClaimAndAbandon := by
  refine fun s p => ⟨fun h => ?_, fun h => ?_⟩
  · rw [execClaimSettings_rise h]
    refine ⟨fun hfree => ?_, fun cl hcl hp => ?_, fun cl hcl hp => ?_⟩
    · rw [claimSettings_free (s := s.deselect p) hfree, State.record_deselected (s := s)] <;> rfl
    · rw [claimSettings_held (s := s.deselect p) hcl hp, State.deselect_record]
    · rw [claimSettings_own (s := s.deselect p) hcl hp, State.deselect_record]
  · rw [execAbandonSettings_rise h]
    refine ⟨fun hcl => ?_, fun staged hcl => ?_⟩
    · rw [abandonSettings_noClaim (State.stagedOf_none (s := s.deselect p) hcl), State.deselect_record]
    · rw [abandonSettings_ok (State.stagedOf_holder (s := s.deselect p) hcl), State.record_deselected (s := s)] <;> rfl

/-- Settles O45: no claim, a value out of range, a field written. -/
theorem writeSetting : Obligations.WriteSetting := by
  intro s p id hi lo h
  rw [execWriteSetting_rise h]
  refine ⟨fun hcl => ?_, fun staged hcl hlegal => ?_, fun staged i hcl hid hlegal => ?_⟩
  · rw [writeSetting_noClaim (State.stagedOf_none (s := s.deselect p) hcl), State.deselect_record]
  · rw [writeSetting_range (State.stagedOf_holder (s := s.deselect p) hcl) hlegal, State.deselect_record]
  · rw [writeSetting_ok (State.stagedOf_holder (s := s.deselect p) hcl) hid hlegal,
      State.record_deselected (s := s)] <;> rfl

end Sys2Proof.Proofs
end

section
/-! PROOFS. Commit Settings refused: the validation of the staged copy in field-ID order (R140). -/

namespace Sys2Proof.Machine

section Refused
variable {s : State} {p : Port} {staged : Settings}

theorem execCommitSettings_rise (h : Waits s p .commitSettings []) :
    exec (.commitSettings p .rise) s = .next (commitSettings p (s.deselect p)) :=
  actionBeat_rise h (by decide) _

theorem commitSettings_noClaim (h : s.stagedOf p = none) :
    commitSettings p s = s.record p 0x42 ⟨.noClaim, 0, 0⟩ := by
  simp only [commitSettings, h]
  rfl

theorem commitSettings_refused {e : Ending} (h : s.stagedOf p = some staged) (hv : s.validate staged = some e) :
    commitSettings p s = s.record p 0x42 e := by
  simp only [commitSettings, h, hv]
  rfl

/-- The lowest port whose depth changes while its queue holds an entry. -/
theorem State.badDepth_eq_some {q : Port} (hdepth : staged.depth q ≠ s.committed.depth q) (hq : s.inqs[q].entries ≠ [])
    (hlow : ∀ q' : Port, q' < q → staged.depth q' = s.committed.depth q' ∨ s.inqs[q'].entries = []) :
    s.badDepth staged = some q :=
  find?_ports_some (by simp [-Fin.getElem_fin, hdepth, hq]) fun q' hlt => by
    rcases hlow q' hlt with h | h <;> simp [-Fin.getElem_fin, h]

theorem State.badDepth_eq_none (h : ∀ q : Port, staged.depth q = s.committed.depth q ∨ s.inqs[q].entries = []) :
    s.badDepth staged = none :=
  find?_ports_none fun q => by rcases h q with h | h <;> simp [-Fin.getElem_fin, h]

theorem State.validate_depth {q : Port} (h : s.badDepth staged = some q) :
    s.validate staged = some ⟨.badSetting, w16 (9 + q.val), w16 s.inqs[q].entries.length⟩ := by
  simp only [State.validate, h]

theorem State.validate_marks (h : s.badDepth staged = none) (hmarks : staged.highMark ≤ staged.lowMark) :
    s.validate staged = some ⟨.badSetting, 0x14, w16 staged.lowMark⟩ := by
  simp only [State.validate, h, if_pos hmarks]

theorem State.validate_mask (h : s.badDepth staged = none) (hmarks : staged.lowMark < staged.highMark)
    (hmask : staged.enableMask = 0) : s.validate staged = some ⟨.badSetting, 0x17, 0⟩ := by
  simp only [State.validate, h, if_neg (Nat.not_le.mpr hmarks), if_pos hmask]

theorem State.validate_passes (h : s.badDepth staged = none) (hmarks : staged.lowMark < staged.highMark)
    (hmask : staged.enableMask ≠ 0) : s.validate staged = none := by
  simp only [State.validate, h, if_neg (Nat.not_le.mpr hmarks), if_neg hmask]

end Refused

end Sys2Proof.Machine

namespace Sys2Proof.Proofs
open Machine

/-- Settles O46: no claim; then the depths, the marks and the mask, each after those before it have passed. -/
theorem commitRefused : Obligations.CommitRefused := by
  intro s p h
  rw [execCommitSettings_rise h]
  refine ⟨fun hcl => ?_, fun staged hcl => ?_⟩
  · rw [commitSettings_noClaim (State.stagedOf_none (s := s.deselect p) hcl), State.deselect_record]
  have hstaged : (s.deselect p).stagedOf p = some staged := State.stagedOf_holder hcl
  refine ⟨fun q hdepth hq hlow => ?_, fun hdepths => ?_⟩
  · have hbad : (s.deselect p).badDepth staged = some q := State.badDepth_eq_some hdepth hq hlow
    rw [commitSettings_refused hstaged (State.validate_depth hbad), State.deselect_record]
    rfl
  · have hgood : (s.deselect p).badDepth staged = none := State.badDepth_eq_none hdepths
    refine ⟨fun hmarks => ?_, fun hmarks hmask => ?_⟩
    · rw [commitSettings_refused hstaged (State.validate_marks hgood hmarks), State.deselect_record]
    · rw [commitSettings_refused hstaged (State.validate_mask hgood hmarks hmask), State.deselect_record]

end Sys2Proof.Proofs
end

section
/-! PROOFS. What a withdrawal strips its port of, and that the withdrawals of other ports leave it so while it is disabled
(R128, R146, R147, R149, R150). -/

namespace Sys2Proof.Machine

/-! ### The records (R146, R147) -/

theorem Life.touches_eq_false {l : Life} {p : Port} :
    l.touches p = false ↔
      l.owner ≠ some p ∧ ∀ d, l.delivery = some d → inSet d.pend p = false ∧ inSet d.hold p = false := by
  cases l <;> simp [Life.touches, Life.hasRole, Life.owner, Life.delivery]

/-- A delivery from which some port has departed touches no port that it did not touch before. -/
theorem touches_leave {d : Delivery} {l : Label} {k : Word} {q : Port}
    (h : (Life.delivering d l k).touches q = false) (p : Port) (how : Departure) :
    (Life.delivering (d.leave p how) l k).touches q = false := by
  obtain ⟨-, hsets⟩ := Life.touches_eq_false.mp h
  obtain ⟨hpend, hhold⟩ := hsets d rfl
  refine Life.touches_eq_false.mpr ⟨nofun, fun d' hd' => ?_⟩
  obtain rfl := Option.some.inj hd'
  rw [Delivery.leave_pend, Delivery.leave_hold, inSet_without, inSet_without, hpend, hhold]
  exact ⟨rfl, rfl⟩

/-- A record that the withdrawal of p has reached has no part of p left. -/
theorem ChainRec.withdrawn_touches (p : Port) (r : ChainRec) : (r.withdrawn p).life.touches p = false := by
  unfold ChainRec.withdrawn
  split
  · split
    · rfl
    · refine Life.touches_eq_false.mpr ⟨nofun, fun d' hd' => ?_⟩
      obtain rfl := Option.some.inj hd'
      rw [Delivery.leave_pend, Delivery.leave_hold, inSet_without, inSet_without]
      simp
  all_goals
    next hl =>
    split
    · rfl
    · next ho => exact Life.touches_eq_false.mpr ⟨ho, by simp [hl, Life.delivery]⟩

/-- After its chains' turns no record has a part of the withdrawn port. -/
theorem withdrawChains_touches (s : State) (p : Port) (n : ChainNo) :
    ((s.withdrawOrder p).foldl (State.withdrawFrom p) s).recs[n].life.touches p = false := by
  rw [(State.withdraw_records p _ (s.withdrawOrder_nodup p) s n).1]
  split
  · exact ChainRec.withdrawn_touches p _
  · next hn => rwa [State.withdrawOrder_mem, Bool.not_eq_true] at hn

/-! ### A port stripped by a commit (R149, R150) -/

/-- Port q is disabled and stripped: its Result record says so, its queues, requests and enables are empty, and no chain
has a part of it. -/
structure State.Bare (q : Port) (s : State) : Prop where
  disabled : s.isEnabled q = false
  result : s.pius[q].result = disabledResult
  inbound : s.inqs[q].entries = []
  notices : s.notqs[q] = []
  edges : s.edges[q] = 0
  enables : s.enables[q] = 0
  chains : ∀ n : ChainNo, s.recs[n].life.touches q = false

theorem State.withdraw_isEnabled (s : State) (p q : Port) (res : ResultRec) :
    (s.withdraw p res).isEnabled q = s.isEnabled q := by
  rw [State.isEnabled, State.withdraw_committed, State.isEnabled]

/-- The withdrawal of a disabled port strips it. -/
theorem State.withdraw_bare {s : State} {q : Port} (h : s.isEnabled q = false) :
    (s.withdraw q disabledResult).Bare q := by
  refine ⟨by rw [State.withdraw_isEnabled, h], ?_, ?_, ?_, ?_, ?_, withdrawChains_touches s q⟩ <;>
    simp only [State.withdraw, State.stripPort, get_set, if_true]
  · rfl
  · rfl

section Bare
variable {s : State} {q : Port} (h : s.Bare q)
include h

/-- A notice addressed to a disabled port is dropped (R90), any other is another port's. -/
theorem State.Bare.offer (p : Port) (m : Notice) : (s.offer p m).Bare q := by
  by_cases hp : p = q
  · subst hp
    rw [State.offer_disabled m h.disabled]
    exact h
  · refine { h with notices := ?_, edges := ?_ }
    · rw [State.offer, get_set, if_neg hp]
      exact h.notices
    · dsimp only [State.offer]
      split
      · exact h.edges
      · rw [State.raise, get_set, if_neg hp]
        exact h.edges

theorem State.Bare.setRec {n : ChainNo} {r : ChainRec} (hr : r.life.touches q = false) : (s.setRec n r).Bare q :=
  { h with
    chains := fun m => by
      rw [State.setRec_recs, get_set]
      split
      · exact hr
      · exact h.chains m }

theorem State.Bare.vacate (n : ChainNo) : (s.vacate n).Bare q := by
  have hpiu : (s.vacate n).pius[q] = s.pius[q].revoke ⟨n, s.recs[n].gen⟩ := by rw [State.vacate_pius]; simp
  have hinq : (s.vacate n).inqs[q] = s.inqs[q].voidRef ⟨n, s.recs[n].gen⟩ := by rw [State.vacate_inqs]; simp
  constructor
  case disabled => rw [State.isEnabled, State.vacate_committed]; exact h.disabled
  case result => rw [hpiu]; exact h.result
  case inbound => rw [hinq, InQueue.voidRef, h.inbound]; rfl
  case notices => rw [State.vacate_notqs]; exact h.notices
  case edges => rw [State.vacate_edges]; exact h.edges
  case enables => rw [State.vacate_enables]; exact h.enables
  case chains =>
    intro m
    rw [State.vacate_recs, get_set]
    split
    · rfl
    · exact h.chains m

theorem State.Bare.depart (p : Port) (how : Departure) (n : ChainNo) : (s.depart p how n).Bare q := by
  unfold State.depart
  split
  · next d l k hl =>
    have hn := h.chains n
    rw [hl] at hn
    have hleft : (s.setRec n { s.recs[n] with life := .delivering (d.leave p how) l k }).Bare q :=
      h.setRec (touches_leave hn p how)
    dsimp only
    split
    · exact (hleft.offer _ _).vacate n
    · exact hleft
  all_goals exact h

/-- The withdrawal of another port takes nothing from a stripped port and gives it nothing. -/
theorem State.Bare.withdraw {p : Port} (hp : p ≠ q) (res : ResultRec) : (s.withdraw p res).Bare q := by
  have hchains : ((s.withdrawOrder p).foldl (State.withdrawFrom p) s).Bare q := by
    generalize s.withdrawOrder p = l
    induction l generalizing s with
    | nil => exact h
    | cons n l ih =>
      refine ih ?_
      unfold State.withdrawFrom
      split
      · exact h.vacate n
      · exact h.depart p _ n
  unfold State.withdraw State.stripPort
  constructor
  case disabled => exact hchains.disabled
  case result => rw [get_set, if_neg hp]; exact hchains.result
  case inbound => rw [get_set, if_neg hp]; exact hchains.inbound
  case notices => rw [get_set, if_neg hp]; exact hchains.notices
  case edges => rw [get_set, if_neg hp]; exact hchains.edges
  case enables => rw [get_set, if_neg hp]; exact hchains.enables
  case chains => exact hchains.chains

end Bare

/-- Of several disabled ports withdrawn one after another, each is stripped in its turn and stays so. -/
theorem withdraws_bare {l : List Port} (hl : l.Nodup) {s : State} (hd : ∀ q ∈ l, s.isEnabled q = false) {q : Port}
    (hq : q ∈ l ∨ s.Bare q ∧ q ∉ l) : (l.foldl (fun t q => t.withdraw q disabledResult) s).Bare q := by
  induction l generalizing s with
  | nil =>
    obtain hq | ⟨hbare, -⟩ := hq
    · cases hq
    · exact hbare
  | cons p l ih =>
    obtain ⟨hp, hl⟩ := List.nodup_cons.mp hl
    refine ih hl (fun q' hq' => ?_) ?_
    · rw [State.withdraw_isEnabled]
      exact hd q' (List.mem_cons_of_mem p hq')
    · obtain hq | ⟨hbare, hq⟩ := hq
      · obtain rfl | hq := List.mem_cons.mp hq
        · exact .inr ⟨State.withdraw_bare (hd q List.mem_cons_self), hp⟩
        · exact .inl hq
      · obtain ⟨hpq, hq⟩ := not_or.mp (mt List.mem_cons.mpr hq)
        exact .inr ⟨hbare.withdraw (Ne.symm hpq) _, hq⟩

end Sys2Proof.Machine
end

section
/-! PROOFS. Commit Settings applied (R141): the order of its withdrawals, and the state it leaves. -/

namespace Sys2Proof.Machine

/-! ### The order of the withdrawals (log entry 9) -/

theorem State.portOrder_perm (s : State) (m : PortSet) : (s.portOrder m).Perm (ports.filter (inSet m)) :=
  orderBy_perm _ _

theorem State.portOrder_zero (s : State) : s.portOrder 0 = [] :=
  List.perm_nil.mp (s.portOrder_perm 0)

theorem State.portOrder_only (s : State) (q : Port) : s.portOrder (only q) = [q] := by
  have hsole : ∀ q : Port, ports.filter (inSet (only q)) = [q] := by decide
  exact List.perm_singleton.mp (hsole q ▸ s.portOrder_perm (only q))

/-! ### The state that a commit leaves -/

/-- Reading a register file written port by port. -/
theorem get_ofFn {α : Type} {n : Nat} (f : Fin n → α) (i : Fin n) : (Vector.ofFn f)[i] = f i := by
  simp

/-- Steps 1 to 3 of R141, on a port whose transaction has closed. -/
def State.committing (p : Port) (staged : Settings) (s : State) : State :=
  { s with
    committed := staged
    inqs := Vector.ofFn (fun q : Port =>
      if staged.depth q = s.committed.depth q then s.inqs[q]
      else { s.inqs[q] with posted := 0, taken := 0, postedLap := 0, takenLap := 0 })
    divider := if staged.tickSelect = s.committed.tickSelect then s.divider else 0
    pius := s.pius.set p s.pius[p].closed }

/-- What a commit by port p does after its withdrawals, from s before it to u after them: the claim ends, a port newly
enabled keeps its notices and requests, the others are sent SETTINGS_CHANGED, and the outcome is recorded at a port still
enabled. -/
def State.finishing (p : Port) (staged : Settings) (s u : State) : State :=
  { u with
    claim := none
    claimLease := .none
    notqs := Vector.ofFn (fun q : Port =>
      if inSet staged.enableMask q = true ∧ inSet s.committed.enableMask q = false then s.notqs[q] else u.notqs[q])
    edges := Vector.ofFn (fun q : Port =>
      (if inSet staged.enableMask q = true ∧ inSet s.committed.enableMask q = false then s.edges[q] else u.edges[q]) |||
        (if inSet staged.enableMask q = true ∧ q ≠ p then 0x08 else 0))
    pius :=
      if inSet staged.enableMask p = true then
        u.pius.set p { u.pius[p] with
          result :=
            { seq := u.pius[p].result.seq + 1
              command := 0x42
              ending := ⟨.ok, w16 (fieldsChanged staged s.committed),
                (s.committed.enableMask &&& ~~~ staged.enableMask).setWidth 16⟩ } }
      else u.pius }

theorem State.enablesAnew_mem (s : State) (staged : Settings) (q : Port) :
    inSet (s.enablesAnew staged) q = true ↔
      inSet staged.enableMask q = true ∧ inSet s.committed.enableMask q = false := by
  simp [State.enablesAnew]

theorem State.disables_mem (s : State) (staged : Settings) (q : Port) :
    inSet (s.disables staged) q = true ↔
      inSet s.committed.enableMask q = true ∧ inSet staged.enableMask q = false := by
  simp [State.disables]

/-- SETTINGS_CHANGED and the requests spared, port by port (R127, R152). -/
theorem State.sparing_raiseAll_edges {s u : State} {p : Port} {staged : Settings} (hu : u.committed = staged) :
    ((s.sparing (s.enablesAnew staged) u).endClaim.raiseAll .settingsChanged (only p)).edges =
      (s.finishing p staged u).edges := by
  have hbit : Reason.settingsChanged.bit = 0x08 := rfl
  have hreason (q : Port) : (inSet staged.enableMask q && !inSet (only p) q) = true ↔
      inSet staged.enableMask q = true ∧ q ≠ p := by
    rw [Bool.and_eq_true, inSet_only, Bool.not_eq_true', decide_eq_false_iff_not, ← ne_eq, ne_comm]
  refine congrArg Vector.ofFn (funext fun q => ?_)
  simp only [State.isEnabled, State.endClaim, State.sparing, hu, hbit, get_ofFn, State.enablesAnew_mem, hreason]
  by_cases hq : inSet staged.enableMask q = true ∧ q ≠ p
  · simp only [if_pos hq]
  · simp only [if_neg hq]
    exact BitVec.or_zero.symm

/-- The steps after the withdrawals, the outcome not yet recorded, in the words of the statement. -/
theorem State.sparing_raiseAll_eq {s u : State} {p : Port} {staged : Settings} (hu : u.committed = staged) :
    (s.sparing (s.enablesAnew staged) u).endClaim.raiseAll .settingsChanged (only p) =
      { s.finishing p staged u with pius := u.pius } :=
  calc (s.sparing (s.enablesAnew staged) u).endClaim.raiseAll .settingsChanged (only p)
    _ = { (s.sparing (s.enablesAnew staged) u).endClaim with
          edges := ((s.sparing (s.enablesAnew staged) u).endClaim.raiseAll .settingsChanged (only p)).edges } := rfl
    _ = { s.finishing p staged u with pius := u.pius } := by
      rw [State.sparing_raiseAll_edges hu]
      simp only [State.sparing, State.endClaim, State.finishing, State.enablesAnew_mem]

/-- The outcome is recorded at a port that the staged copy leaves enabled. -/
theorem State.finishing_eq {s u : State} {p : Port} {staged : Settings} (hu : u.committed = staged) :
    ((s.sparing (s.enablesAnew staged) u).endClaim.raiseAll .settingsChanged (only p)).recordCommit p
      ⟨.ok, w16 (staged.changed s.committed), (s.disables staged).setWidth 16⟩ = s.finishing p staged u := by
  have henabled : ({ s.finishing p staged u with pius := u.pius } : State).isEnabled p = inSet staged.enableMask p := by
    rw [← hu]; rfl
  rw [State.sparing_raiseAll_eq hu, State.recordCommit, henabled]
  by_cases hp : inSet staged.enableMask p = true
  · simp only [hp, if_true, State.finishing]
    rfl
  · simp only [hp, State.finishing]
    rfl

/-! ### The commit (R141) -/

section Applied
variable {s : State} {p : Port} {staged : Settings}

theorem State.withdraws_committed (l : List Port) (s : State) :
    (l.foldl (fun u q => u.withdraw q disabledResult) s).committed = s.committed := by
  induction l generalizing s with
  | nil => rfl
  | cons q l ih => rw [List.foldl_cons, ih, State.withdraw_committed]

/-- The whole effect of an accepted Commit Settings, its withdrawals in the model's order. -/
theorem execCommitSettings_ok (h : Waits s p .commitSettings []) (hcl : s.claim = some ⟨p, staged⟩)
    (hdepths : ∀ q : Port, staged.depth q = s.committed.depth q ∨ s.inqs[q].entries = [])
    (hmarks : staged.lowMark < staged.highMark) (hmask : staged.enableMask ≠ 0) :
    exec (.commitSettings p .rise) s =
      .next (s.finishing p staged (((s.committing p staged).portOrder (s.disables staged)).foldl
        (fun u q => u.withdraw q disabledResult) (s.committing p staged))) := by
  have hstaged : (s.deselect p).stagedOf p = some staged := State.stagedOf_holder hcl
  have hgood : (s.deselect p).badDepth staged = none := State.badDepth_eq_none hdepths
  have happlied : (s.deselect p).applySettings staged = s.committing p staged := rfl
  have hcommitted : ((s.committing p staged).withdrawAll (s.disables staged)).committed = staged :=
    State.withdraws_committed _ _
  rw [execCommitSettings_rise h]
  unfold commitSettings
  rw [hstaged]
  dsimp only
  rw [State.validate_passes hgood hmarks hmask]
  dsimp only
  rw [State.commit, happlied]
  exact congrArg _ (State.finishing_eq hcommitted)

/-- A port stripped by the withdrawals is left as it is by the rest of the commit. -/
theorem State.Bare.finishing {u : State} {q : Port} (h : u.Bare q) (hq : inSet staged.enableMask q = false) :
    (s.finishing p staged u).Bare q := by
  have hnot : ¬(inSet staged.enableMask q = true ∧ inSet s.committed.enableMask q = false) := by simp [hq]
  constructor
  case disabled => exact h.disabled
  case result =>
    dsimp only [State.finishing]
    split
    · next hp =>
      rw [get_set, if_neg (by rintro rfl; rw [hq] at hp; cases hp)]
      exact h.result
    · exact h.result
  case inbound => exact h.inbound
  case notices => rw [State.finishing, get_ofFn, if_neg hnot]; exact h.notices
  case edges =>
    rw [State.finishing, get_ofFn, if_neg hnot, if_neg (by simp [hq]), h.edges]
    rfl
  case enables => exact h.enables
  case chains => exact h.chains

end Applied

end Sys2Proof.Machine

namespace Sys2Proof.Proofs
open Machine

/-- Settles O47: the commit begun, the withdrawals in the model's order, and the commit finished; a port newly disabled is
stripped in its turn and left so. -/
theorem commitApplies : Obligations.CommitApplies := by
  rintro s s1 p staged finish h hcl hdepths hmarks hmask rfl rfl
  have hexec := execCommitSettings_ok h hcl hdepths hmarks hmask
  have hmem (q : Port) : q ∈ (s.committing p staged).portOrder (s.disables staged) ↔
      inSet s.committed.enableMask q = true ∧ inSet staged.enableMask q = false :=
    ((s.committing p staged).portOrder_mem _ q).trans (s.disables_mem staged q)
  have hnodup := (s.committing p staged).portOrder_nodup (s.disables staged)
  refine ⟨fun hnone => ?_, fun q hone => ?_, ⟨_, hnodup, hmem, hexec⟩, fun t ht => ?_⟩
  · rw [State.disables, hnone, State.portOrder_zero] at hexec
    exact hexec
  · rw [State.disables, hone, State.portOrder_only] at hexec
    exact hexec
  · rw [hexec] at ht
    cases ht
    have hdisabled (q : Port) (hq : q ∈ (s.committing p staged).portOrder (s.disables staged)) :
        (s.committing p staged).isEnabled q = false := ((hmem q).mp hq).2
    refine ⟨State.withdraws_committed _ _, rfl, rfl, ?_, fun q hon hoff => ?_⟩
    · exact State.withdrawAll_keeps State.divider State.withdraw_divider (s.disables staged) (s.committing p staged)
    · have hbare := (withdraws_bare hnodup hdisabled (.inl ((hmem q).mpr ⟨hon, hoff⟩))).finishing (s := s) (p := p) hoff
      exact ⟨hbare.result, hbare.inbound, hbare.notices, hbare.edges, hbare.enables, hbare.chains⟩

end Sys2Proof.Proofs
end

section
/-! PROOFS. A disabled port stays stripped, port by port (R151): what the shared operations on records, queues, flags,
claim and PIUs do to one port q, whichever port acts. -/

namespace Sys2Proof.Machine

/-! ### One port -/

/-- The link carries no command that a withdrawal ends (R150). -/
def Link.Untaken (l : Link) : Prop := ∀ c ops b, l = .body c ops b → b.untaken

/-- No take and no stream is under way, a stream that waits for its recording aside. -/
def Piu.Untaken (u : Piu) : Prop := (∀ st, u.stream = some st → st.earned ≠ none) ∧ u.link.Untaken

/-- What R151 asks of a disabled port q: its queues and flags are empty, no chain has a part of it, it holds no claim and
its PIU has nothing under way. -/
structure State.NothingAt (q : Port) (s : State) : Prop where
  inbound : s.inqs[q].entries = []
  notices : s.notqs[q] = []
  edges : s.edges[q] = 0
  enables : s.enables[q] = 0
  chains : ∀ n : ChainNo, s.recs[n].life.touches q = false
  claim : ∀ cl, s.claim = some cl → cl.holder ≠ q
  piu : s.pius[q].Untaken

/-- Port q, while it is disabled, is stripped. -/
def DisabledAt (q : Port) (s : State) : Prop := s.isEnabled q = false → s.NothingAt q

theorem disabledInv_iff (s : State) : DisabledInv s ↔ ∀ q, DisabledAt q s := by
  constructor
  · intro h q hq
    obtain ⟨hinq, hnotq, hedges, henables, hchains, hclaim, hstream, hlink⟩ := h q hq
    exact ⟨hinq, hnotq, hedges, henables, hchains, hclaim, hstream, hlink⟩
  · intro h q hq
    obtain ⟨hinq, hnotq, hedges, henables, hchains, hclaim, hstream, hlink⟩ := h q hq
    exact ⟨hinq, hnotq, hedges, henables, hchains, hclaim, hstream, hlink⟩

theorem Link.Off.untaken {l : Link} (h : l.Off) : l.Untaken := by
  rcases h with rfl | rfl | ⟨x, rfl⟩ <;> exact nofun

theorem Link.untaken_operand (c : Cmd) (ops : List Byte) : (Link.operand c ops).Untaken := nofun

theorem Link.untaken_body {b : Body} (h : b.untaken) (c : Cmd) (ops : List Byte) : (Link.body c ops b).Untaken := by
  rintro c' ops' b' ⟨⟩
  exact h

theorem Body.untaken_pass {b : Body} (h : b.untaken) : b.pass.untaken := by
  cases b with
  | copy bytes again => cases bytes <;> trivial
  | _ => exact h

theorem Body.untaken_stop (b : Body) : b.stop.untaken := by cases b <;> trivial

theorem Link.untaken_withdraw (l : Link) : l.withdraw.Untaken := by
  cases l with
  | deselected => exact Link.Off.untaken (.inl rfl)
  | command => exact Link.Off.untaken (.inr (.inl rfl))
  | operand c ops => exact Link.untaken_operand c ops
  | body c ops b => exact Link.untaken_body b.untaken_stop c ops
  | ignoring x => exact Link.Off.untaken (.inr (.inr ⟨x, rfl⟩))

/-- A vacate neither starts a stream nor takes from one what it has earned. -/
theorem Piu.Untaken.revoke {u : Piu} (h : u.Untaken) (r : ChainRef) : (u.revoke r).Untaken := by
  refine ⟨fun st hst => ?_, h.2⟩
  have hearned := u.revoke_earned r
  rw [hst, Option.map_some, eq_comm, Option.map_eq_some_iff] at hearned
  obtain ⟨st', hst', he⟩ := hearned
  exact he ▸ h.1 st' hst'

theorem Piu.untaken_withdraw (u : Piu) (res : ResultRec) : (u.withdraw res).Untaken := by
  refine ⟨fun st hst => ?_, u.link.untaken_withdraw⟩
  simp only [Piu.withdraw, Option.filter_eq_some_iff] at hst
  exact Option.isSome_iff_ne_none.mp hst.2

/-- A port in the data phase of a stream is enabled. -/
theorem Piu.taken_of_streaming {u : Piu} {c : Cmd} {ops : List Byte} (h : u.link = .body c ops .streaming) :
    ¬u.Untaken :=
  fun hu => hu.2 c ops .streaming h

theorem State.ne_of_enabled {s : State} {p q : Port} (hp : s.isEnabled p = true) (hq : s.isEnabled q = false) :
    p ≠ q := by
  rintro rfl
  rw [hp] at hq
  cases hq

/-- What holds of the value written and of the one that stood there holds of the one read. -/
theorem get_set_cases {α : Type} {n : Nat} {P : α → Prop} {v : Vector α n} {p q : Fin n} {x : α} (hx : P x)
    (hq : P v[q]) : P (v.set p x)[q] := by
  rw [get_set]
  split
  · exact hx
  · exact hq

/-! ### What a change of the state leaves -/

/-- What is read of the state: the settings, the records, the queues, the flags, the claim and the PIUs. -/
def State.holdings (s : State) := (s.committed, s.recs, s.inqs, s.notqs, s.edges, s.enables, s.claim, s.pius)

section Operations
variable {q : Port} {s : State} (h : DisabledAt q s)
include h

theorem DisabledAt.congr {t : State} (ht : t.holdings = s.holdings) : DisabledAt q t := by
  simp only [State.holdings, Prod.mk.injEq] at ht
  obtain ⟨hcommitted, hrecs, hinqs, hnotqs, hedges, henables, hclaim, hpius⟩ := ht
  intro hq
  obtain ⟨hinq, hnotq, hedge, henable, hchains, hcl, hpiu⟩ := h (by rwa [State.isEnabled, hcommitted] at hq)
  exact ⟨hinqs ▸ hinq, hnotqs ▸ hnotq, hedges ▸ hedge, henables ▸ henable, hrecs ▸ hchains, hclaim ▸ hcl, hpius ▸ hpiu⟩

/-! ### PIUs -/

/-- A PIU changes; at a disabled port it has nothing under way afterwards. -/
theorem DisabledAt.setPiu {p : Port} {u : Piu}
    (hu : s.isEnabled p = false → s.pius[p].Untaken → u.Untaken) : DisabledAt q (s.setPiu p u) := fun hq =>
  { h hq with
    piu := by
      rw [State.setPiu_pius, get_set]
      split
      · next e => exact hu (e ▸ hq) (e ▸ (h hq).piu)
      · exact (h hq).piu }

/-- The link keeps its state or carries no command past its command byte, and the stream is left alone. -/
theorem DisabledAt.quiet {p : Port} {u : Piu} (hl : u.link = s.pius[p].link ∨ u.link.Off)
    (hs : u.stream = s.pius[p].stream) : DisabledAt q (s.setPiu p u) :=
  h.setPiu fun _ hu => ⟨hs ▸ hu.1, hl.elim (fun e => e ▸ hu.2) Link.Off.untaken⟩

theorem DisabledAt.setWire (p : Port) (w : Wire) : DisabledAt q (s.setWire p w) := h.quiet (.inl rfl) rfl
theorem DisabledAt.byteEnd (p : Port) : DisabledAt q (s.byteEnd p) := h.setWire p _
theorem DisabledAt.deselect (p : Port) : DisabledAt q (s.deselect p) := h.quiet (.inr (.inl rfl)) rfl
theorem DisabledAt.record (p : Port) (c : Byte) (e : Ending) : DisabledAt q (s.record p c e) := h.quiet (.inl rfl) rfl

theorem DisabledAt.setLink {p : Port} {l : Link}
    (hl : s.isEnabled p = false → s.pius[p].Untaken → l.Untaken) : DisabledAt q (s.setLink p l) :=
  h.setPiu fun hp hu => ⟨hu.1, hl hp hu⟩

theorem DisabledAt.ignoring (p : Port) (x : Byte) : DisabledAt q (s.setLink p (.ignoring x)) :=
  h.setLink fun _ _ => Link.Off.untaken (.inr (.inr ⟨x, rfl⟩))

/-- A command waits, copies, is refused or has ended: nothing that a withdrawal ends has begun. -/
theorem DisabledAt.body {b : Body} (hb : b.untaken) (p : Port) (c : Cmd) (ops : List Byte) :
    DisabledAt q (s.setLink p (.body c ops b)) :=
  h.setLink fun _ _ => Link.untaken_body hb c ops

/-! ### Notices, flags, queues, claim -/

/-- A notice addressed to a disabled port is dropped (R90), any other is another port's. -/
theorem DisabledAt.offer (p : Port) (m : Notice) : DisabledAt q (s.offer p m) := by
  by_cases hp : p = q
  · subst hp
    intro hq
    have hdropped : s.offer p m = s := State.offer_disabled m hq
    exact hdropped.symm ▸ h hq
  · intro hq
    refine { h hq with notices := ?_, edges := ?_ }
    · rw [State.offer, get_set, if_neg hp]
      exact (h hq).notices
    · dsimp only [State.offer]
      split
      · exact (h hq).edges
      · rw [State.raise, get_set, if_neg hp]
        exact (h hq).edges

/-- The edge requests of a disabled port stay 0. -/
theorem DisabledAt.setEdges {e : Vector ReasonMask 4} (he : s.isEnabled q = false → s.edges[q] = 0 → e[q] = 0) :
    DisabledAt q { s with edges := e } := fun hq =>
  { h hq with edges := he hq (h hq).edges }

/-- An edge request is raised at enabled ports only (R128). -/
theorem DisabledAt.raise (r : Reason) (p : Port) : DisabledAt q (s.raise r p) :=
  h.setEdges fun hq he => by
    rw [get_set]
    split
    · next e => rw [e, hq]; exact he
    · exact he

theorem DisabledAt.raiseAll (r : Reason) (except : PortSet) : DisabledAt q (s.raiseAll r except) :=
  h.setEdges fun hq he => by rw [get_ofFn, hq]; exact he

theorem DisabledAt.acknowledge (p : Port) (m : ReasonMask) : DisabledAt q (s.acknowledge p m) :=
  h.setEdges fun _ he => by
    rw [get_set]
    split
    · next e => rw [e, he]; exact BitVec.zero_and
    · exact he

theorem DisabledAt.linkError (p : Port) (c : Byte) (e : Ending) : DisabledAt q (s.linkError p c e) :=
  ((h.deselect p).record p c e).raise _ p

/-- Enables are written at an enabled port. -/
theorem DisabledAt.writeEnables {p : Port} (hp : s.isEnabled p = true) (m : ReasonMask) :
    DisabledAt q (s.setEnables p m) := fun hq =>
  { h hq with
    enables := by
      rw [State.setEnables, get_set, if_neg (State.ne_of_enabled hp hq)]
      exact (h hq).enables }

theorem DisabledAt.dropNotice (p : Port) : DisabledAt q (s.setNotq p s.notqs[p].tail) := fun hq =>
  { h hq with
    notices := by
      rw [State.setNotq_notqs, get_set]
      split
      · next e => rw [e, (h hq).notices]; rfl
      · exact (h hq).notices }

/-- The inbound queues are written; a disabled port's stays empty. -/
theorem DisabledAt.setInqs {i : Vector InQueue 4}
    (hi : s.isEnabled q = false → s.inqs[q].entries = [] → i[q].entries = []) : DisabledAt q { s with inqs := i } :=
  fun hq => { h hq with inbound := hi hq (h hq).inbound }

/-- The claim is written: it is over, or its holder is not the port. -/
theorem DisabledAt.setClaim {claim : Option Claim} {lease : ClaimLease}
    (hc : s.isEnabled q = false → ∀ cl, claim = some cl → cl.holder ≠ q) :
    DisabledAt q { s with claim := claim, claimLease := lease } := fun hq => { h hq with claim := hc hq }

theorem DisabledAt.endClaim : DisabledAt q s.endClaim := h.setClaim fun _ => nofun

theorem DisabledAt.grantClaim {p : Port} (hp : s.isEnabled p = true) : DisabledAt q (s.grantClaim p) :=
  h.setClaim fun hq cl hcl => by
    obtain rfl := Option.some.inj hcl
    exact State.ne_of_enabled hp hq

/-- The holder of the claim holds it on. -/
theorem DisabledAt.writeStaged {p : Port} {staged : Settings} (hs : s.stagedOf p = some staged) (i : Fin 23) (v : Word) :
    DisabledAt q (s.writeStaged p staged i v) :=
  h.setClaim fun hq cl hcl => by
    obtain rfl := Option.some.inj hcl
    exact (h hq).claim ⟨p, staged⟩ (stagedOf_some hs)

/-! ### Records -/

/-- A record is replaced; a disabled port has no part in it that it did not have before. -/
theorem DisabledAt.setRec {n : ChainNo} {r : ChainRec}
    (hr : s.isEnabled q = false → s.recs[n].life.touches q = false → r.life.touches q = false) :
    DisabledAt q (s.setRec n r) := fun hq =>
  { h hq with
    chains := fun m => by
      rw [State.setRec_recs, get_set]
      split
      · exact hr hq ((h hq).chains n)
      · exact (h hq).chains m }

theorem DisabledAt.loadLease (n : ChainNo) : DisabledAt q (s.loadLease n) := h.congr rfl

theorem DisabledAt.vacate (n : ChainNo) : DisabledAt q (s.vacate n) := fun hq => by
  have hs := h (by rwa [State.isEnabled, State.vacate_committed] at hq)
  constructor
  case inbound => rw [State.vacate_inq, InQueue.voidRef, hs.inbound]; rfl
  case notices => rw [State.vacate_notqs]; exact hs.notices
  case edges => rw [State.vacate_edges]; exact hs.edges
  case enables => rw [State.vacate_enables]; exact hs.enables
  case claim => rw [State.vacate_claim]; exact hs.claim
  case piu => rw [State.vacate_piu]; exact hs.piu.revoke _
  case chains =>
    intro m
    rw [State.vacate_recs, get_set]
    split
    · rfl
    · exact hs.chains m

theorem DisabledAt.depart (p : Port) (how : Departure) (n : ChainNo) : DisabledAt q (s.depart p how n) := by
  unfold State.depart
  split
  · next d l k hl =>
    have hleft : DisabledAt q (s.setRec n { s.recs[n] with life := .delivering (d.leave p how) l k }) :=
      h.setRec fun _ htouches => touches_leave (hl ▸ htouches) p how
    dsimp only
    split
    · exact (hleft.offer _ _).vacate n
    · exact hleft
  all_goals exact h

end Operations
end Sys2Proof.Machine
end

section
/-! PROOFS. A disabled port stays stripped across the effects of the commands, the streams, the part's own agents, a
withdrawal and a commit (R149 to R152). -/

namespace Sys2Proof.Machine

/-- A chain that another port owns has no part of the port. -/
theorem touches_of_owned {l : Life} {p q : Port} (ho : l.owner = some p) (hq : p ≠ q) : l.touches q = false := by
  refine Life.touches_eq_false.mpr ⟨fun e => hq (Option.some.inj (ho.symm.trans e)), fun d hd => ?_⟩
  cases l with
  | delivering => cases ho
  | _ => cases hd

theorem touches_of_owner {l : Life} {p : Port} (ho : l.owner = some p) : l.touches p = true := by
  by_contra hne
  exact (Life.touches_eq_false.mp (Bool.not_eq_true _ ▸ hne)).1 ho

theorem touches_of_holder {d : Delivery} {l : Label} {k : Word} {p : Port} (hp : inSet d.hold p = true) :
    (Life.delivering d l k).touches p = true := by
  simp [Life.touches, Life.hasRole, Life.delivery, hp]

/-- Check 2 of R65 has found every destination enabled. -/
theorem enabled_of_firstDisabled_none {s : State} {dests : PortSet} (h : s.firstDisabled dests = none) {q : Port}
    (hq : inSet dests q = true) : s.isEnabled q = true := by
  simpa [hq] using List.find?_eq_none.mp h q (mem_ports q)

/-- A recall is the origin's (R12). -/
theorem chainCheck_origin {s : State} {p : Port} {ops : List Byte} {n : ChainNo} {d : Delivery} {l : Label} {k : Word}
    (h : s.chainCheck .recallChain p ops = .ok n) (hl : s.recs[n].life = .delivering d l k) : d.origin = p := by
  obtain ⟨-, -, -, row, hrow, hrole, -⟩ := chainCheck_ok_iff h
  obtain rfl := List.mem_singleton.mp hrow
  simpa [-Fin.getElem_fin, Life.hasRole, Life.delivery, hl] using hrole

section Effects
variable {q : Port} {s : State} (h : DisabledAt q s)
include h

/-! ### Chains that stay with a port, or come to an enabled one -/

/-- A record comes to belong to a port that is enabled, or had a part in it. -/
theorem DisabledAt.setRec_owned {n : ChainNo} {p : Port} {r : ChainRec} (hr : r.life.owner = some p)
    (hp : s.isEnabled p = true ∨ s.recs[n].life.touches p = true) : DisabledAt q (s.setRec n r) :=
  h.setRec fun hq htouches => touches_of_owned hr (by
    rintro rfl
    obtain he | ht := hp
    · exact State.ne_of_enabled he hq rfl
    · rw [ht] at htouches
      cases htouches)

theorem DisabledAt.setRec_same {n : ChainNo} {r : ChainRec} (hr : r.life = s.recs[n].life) :
    DisabledAt q (s.setRec n r) :=
  h.setRec fun _ htouches => hr ▸ htouches

theorem DisabledAt.openChain {p : Port} (hp : s.isEnabled p = true) (tag : Word) :
    DisabledAt q (openChain p tag s).1 := by
  unfold Machine.openChain
  split
  · exact h
  split
  · exact h
  · next n _ =>
    exact (h.setRec_owned (n := n) (p := p)
      (r := { gen := s.recs[n].gen, life := .opened p ⟨tag, 0⟩, length := 0, blocks := [] }) rfl (.inl hp)).congr rfl

theorem DisabledAt.placeSeal {n : ChainNo} {p : Port} (hp : s.isEnabled p = true) (l : Label) :
    DisabledAt q (s.placeSeal n p l) :=
  (h.setRec_owned (n := n) (p := p) (r := { s.recs[n] with life := .sealing p l }) rfl (.inl hp)).congr rfl

theorem DisabledAt.unseal {n : ChainNo} {p : Port} (hp : s.isEnabled p = true) (l : Label) :
    DisabledAt q (s.unseal n p l) :=
  (h.setRec_owned (n := n) (p := p) (r := { s.recs[n] with life := .opened p l }) rfl (.inl hp)).congr
    (by simp [State.unseal, State.holdings])

/-- The completion leaves the chain with its owner. -/
theorem DisabledAt.complete (run : SealRun) : DisabledAt q (s.complete run) := by
  unfold State.complete
  dsimp only
  split
  · next o l hl =>
    split
    · exact (h.setRec_owned (n := run.ref.num) (p := o)
        (r := { s.recs[run.ref.num] with life := .sealed o l run.reg }) rfl
        (.inr (touches_of_owner (by rw [hl]; rfl)))).offer _ _
    · exact h
  all_goals exact h

/-! ### Growth -/

theorem DisabledAt.freeFalls (l : List Nat) : DisabledAt q (s.freeFalls l) := by
  have hedges : DisabledAt q { s with edges := (s.freeFalls l).edges } := h.setEdges fun hq he => by
    dsimp only [State.freeFalls]
    split
    · exact ((h.raiseAll .lowFree 0) hq).edges
    · exact he
  exact hedges.congr rfl

theorem DisabledAt.grow (n : ChainNo) (p : Port) (bs : List Nat) : DisabledAt q (s.grow n p bs) :=
  (h.setRec_same (n := n) (r := { s.recs[n] with blocks := s.recs[n].blocks ++ bs }) rfl).congr rfl

theorem DisabledAt.lengthen (n : ChainNo) (len : Nat) : DisabledAt q (s.lengthen n len) :=
  (h.setRec_same (n := n) (r := { s.recs[n] with length := len }) rfl).congr rfl

theorem DisabledAt.extendChain (p : Port) (n : ChainNo) (count : Word) :
    DisabledAt q (extendChain p n count s).1 := by
  obtain e | ⟨len, -, -, ⟨-, e⟩ | ⟨bs, t, halloc, -, e⟩⟩ := extendChain_cases p n count s <;> rw [e]
  · exact h
  · exact h.lengthen n len
  · obtain ⟨-, -, rfl⟩ := allocate_some halloc
    exact ((h.freeFalls _).grow n p bs).lengthen n len

/-! ### Hand-off -/

/-- A chain goes to enabled ports only (R65), and is then no more its owner's. -/
theorem DisabledAt.handChain (p : Port) (n : ChainNo) (mask : Byte) : DisabledAt q (handChain p n mask s).1 := by
  unfold Machine.handChain
  dsimp only
  split
  · exact h
  split
  · exact h
  next henabled =>
  split
  · exact h
  have hnot (hq : s.isEnabled q = false) : inSet (mask.setWidth 4 : PortSet) q = false := by
    by_contra hin
    rw [enabled_of_firstDisabled_none henabled (Bool.not_eq_false _ ▸ hin)] at hq
    cases hq
  unfold State.hand State.placeEntries
  refine ((h.setRec fun hq _ => ?_).loadLease n).setInqs fun hq he => ?_
  · refine Life.touches_eq_false.mpr ⟨nofun, fun d hd => ?_⟩
    obtain rfl := Option.some.inj hd
    exact ⟨hnot hq, inSet_zero q⟩
  · rw [get_ofFn, hnot hq]
    exact he

theorem DisabledAt.takeLive {p : Port} (hp : s.isEnabled q = false → p ≠ q) (ref : ChainRef) :
    DisabledAt q (s.takeLive p ref) := by
  unfold State.takeLive
  dsimp only
  split
  · next d l k hl =>
    split
    · refine (h.setRec fun hq htouches => ?_).loadLease _
      rw [hl] at htouches
      obtain ⟨-, hsets⟩ := Life.touches_eq_false.mp htouches
      obtain ⟨hpend, hhold⟩ := hsets d rfl
      refine Life.touches_eq_false.mpr ⟨nofun, fun d' hd' => ?_⟩
      obtain rfl := Option.some.inj hd'
      simp [hpend, hhold, hp hq]
    · exact h
  all_goals exact h

/-- A take is from a queue that is not empty, so not a disabled port's. -/
theorem DisabledAt.takeInbound (p : Port) (body : Body) :
    DisabledAt q (takeInbound p body s).1 := by
  have hremoved : DisabledAt q (s.setInq p (s.inqs[p].remove (s.committed.depth p))) := h.setInqs fun _ he => by
    rw [get_set]
    split
    · next e => rw [InQueue.remove, e, he]; rfl
    · exact he
  unfold Machine.takeInbound
  split
  · split
    · exact h
    split
    · next e hhead =>
      have hp (hq : s.isEnabled q = false) : p ≠ q := by
        rintro rfl
        rw [(h hq).inbound] at hhead
        cases hhead
      unfold takeHead
      dsimp only
      split
      · exact hremoved
      · exact hremoved.takeLive hp e.ref
    · exact h
  all_goals exact h

theorem DisabledAt.releaseChain (p : Port) (n : ChainNo) (x : Byte) : DisabledAt q (releaseChain p n x s).1 := by
  unfold Machine.releaseChain State.releaseBy
  split
  · exact h
  · next how _ _ _ =>
    dsimp only
    split
    · exact h.depart p how n
    · exact (h.depart p how n).loadLease n
  · exact h

/-- The adopter was the chain's sole holder. -/
theorem DisabledAt.adoptChain (p : Port) (n : ChainNo) : DisabledAt q (adoptChain p n s).1 := by
  unfold Machine.adoptChain
  split
  · next d l k hl =>
    split
    · exact h
    next hsole =>
    have hholder : s.recs[n].life.touches p = true := by
      have hhold : d.hold = only p := by
        simp only [Bool.or_eq_true, decide_eq_true_eq, not_or, ne_eq, Decidable.not_not] at hsole
        exact hsole.1
      rw [hl]
      exact touches_of_holder (by simp [hhold])
    split
    · exact h
    split
    · exact h
    split
    · exact h
    have hconsumed := h.offer d.origin ((d.leave p .accepted).consumed ⟨n, s.recs[n].gen⟩ l.tag)
    exact (hconsumed.setRec_owned (n := n) (p := p)
      (r := { s.recs[n] with life := .sealed p ⟨l.tag, l.hops + 1⟩ k }) rfl (.inr hholder)).congr
      (by simp [State.adopt, State.holdings])
  all_goals exact h

/-- The chain returns to its origin, whose port is enabled. -/
theorem DisabledAt.recallChain {n : ChainNo}
    (ho : ∀ d l k, s.recs[n].life = .delivering d l k → s.isEnabled d.origin = true) :
    DisabledAt q (recallChain n s).1 := by
  unfold Machine.recallChain
  split
  · next d l k hl =>
    split
    · exact h
    have hvoid : DisabledAt q (s.voidEntries ⟨n, s.recs[n].gen⟩) := h.setInqs fun _ he => by
      have hvoided : (s.inqs.map (InQueue.voidRef ⟨n, s.recs[n].gen⟩))[q] =
          (s.inqs[q]).voidRef ⟨n, s.recs[n].gen⟩ := by simp
      rw [hvoided, InQueue.voidRef, he]
      rfl
    exact (hvoid.setRec_owned (n := n) (p := d.origin) (r := { s.recs[n] with life := .sealed d.origin l k }) rfl
      (.inl (ho d l k hl))).loadLease n
  all_goals exact h

/-! ### Expiries -/

theorem DisabledAt.expiryNotices (n : ChainNo) : DisabledAt q (s.expiryNotices n) := by
  have hholders (m : Notice) (l : List Port) {t : State} (ht : DisabledAt q t) :
      DisabledAt q (l.foldl (fun t p => t.offer p m) t) := by
    induction l generalizing t with
    | nil => exact ht
    | cons p l ih => exact ih (ht.offer p m)
  unfold State.expiryNotices
  dsimp only
  split
  · exact h
  · exact h.offer _ _
  · exact h.offer _ _
  · exact h.offer _ _
  · exact hholders _ _ (h.offer _ _)

theorem DisabledAt.expire (n : ChainNo) : DisabledAt q (s.expire n) := (h.expiryNotices n).vacate n

theorem DisabledAt.lapse : DisabledAt q s.lapse := by
  unfold State.lapse
  split
  · exact h.endClaim.offer _ _
  · exact h.endClaim

/-! ### Settings -/

theorem DisabledAt.claimSettings {p : Port} (hp : s.isEnabled p = true) : DisabledAt q (claimSettings p s).1 := by
  unfold Machine.claimSettings
  split
  · exact h.grantClaim hp
  · split <;> exact h

theorem DisabledAt.writeSetting (p : Port) (id : Byte) (v : Word) : DisabledAt q (writeSetting p id v s).1 := by
  unfold Machine.writeSetting
  split
  · exact h
  · exact h
  · next hstaged _ =>
    split
    · exact h.writeStaged hstaged _ v
    · exact h

theorem DisabledAt.abandonSettings (p : Port) : DisabledAt q (abandonSettings p s).1 := by
  unfold Machine.abandonSettings
  split
  · exact h
  · exact h.endClaim

/-! ### Notices and flags -/

theorem DisabledAt.takeNotice (p : Port) (body : Body) : DisabledAt q (takeNotice p body s).1 := by
  unfold Machine.takeNotice
  split
  · split
    · exact h
    · exact h.dropNotice p
  all_goals exact h

theorem DisabledAt.setEnables {p : Port} (hp : s.isEnabled p = true) (m : Byte) : DisabledAt q (setEnables p m s).1 := by
  unfold Machine.setEnables
  split
  · exact h
  · exact h.writeEnables hp _

theorem DisabledAt.acknowledgeAttention (p : Port) (m : Byte) : DisabledAt q (acknowledgeAttention p m s).1 := by
  unfold Machine.acknowledgeAttention
  split
  · exact h
  · exact h.acknowledge p _

/-! ### Withdrawal (R145 to R150) -/

/-- The withdrawal of any port takes nothing from a stripped port and gives it nothing. -/
theorem DisabledAt.withdraw (p : Port) (res : ResultRec) : DisabledAt q (s.withdraw p res) := by
  have hchains : DisabledAt q ((s.withdrawOrder p).foldl (State.withdrawFrom p) s) := by
    generalize s.withdrawOrder p = l
    induction l generalizing s with
    | nil => exact h
    | cons n l ih =>
      refine ih ?_
      unfold State.withdrawFrom
      split
      · exact h.vacate n
      · exact h.depart p _ n
  intro hq
  have hs := hchains hq
  unfold State.withdraw State.stripPort
  constructor
  case inbound => exact get_set_cases (P := fun i : InQueue => i.entries = []) rfl hs.inbound
  case notices => exact get_set_cases (P := (· = [])) rfl hs.notices
  case edges => exact get_set_cases (P := (· = 0)) rfl hs.edges
  case enables => exact get_set_cases (P := (· = 0)) rfl hs.enables
  case chains => exact hs.chains
  case piu => exact get_set_cases (Piu.untaken_withdraw _ res) hs.piu
  case claim =>
    dsimp only
    split
    · exact nofun
    · exact hs.claim

end Effects

/-- A withdrawal strips its port. -/
theorem State.withdraw_nothingAt (s : State) (q : Port) (res : ResultRec) : (s.withdraw q res).NothingAt q := by
  have hchains := withdrawChains_touches s q
  unfold State.withdraw State.stripPort
  constructor
  case chains => exact hchains
  case piu => rw [get_set, if_pos rfl]; exact Piu.untaken_withdraw _ _
  case claim =>
    intro cl hcl e
    dsimp only at hcl
    split at hcl
    · cases hcl
    · next hne => exact hne (by rw [hcl, Option.map_some, e])
  all_goals rw [get_set, if_pos rfl]
  rfl

/-- Of several ports withdrawn one after another, each is stripped in its turn and stays so. -/
theorem withdraws_disabledAt {q : Port} (l : List Port) (res : ResultRec) {s : State} (hq : q ∈ l ∨ DisabledAt q s) :
    DisabledAt q (l.foldl (fun t p => t.withdraw p res) s) := by
  induction l generalizing s with
  | nil => exact hq.resolve_left List.not_mem_nil
  | cons p l ih =>
    refine ih ?_
    by_cases hp : q = p
    · subst hp
      exact .inr fun _ => s.withdraw_nothingAt q res
    · obtain hmem | hs := hq
      · exact .inl ((List.mem_cons.mp hmem).resolve_left hp)
      · exact .inr (hs.withdraw p res)

/-! ### Commit (R141, R152) -/

/-- A port that a commit leaves disabled was disabled and stripped before, or is withdrawn by the commit; a port that the
commit enables is not asked for. -/
theorem DisabledAt.commit {q : Port} {s : State} (h : DisabledAt q s) (p : Port) (staged : Settings) :
    DisabledAt q (s.commit p staged) := by
  intro hq
  have hstaged : inSet staged.enableMask q = false := by rwa [State.isEnabled, State.commit_committed] at hq
  have hwithdrawn : DisabledAt q ((s.applySettings staged).withdrawAll (s.disables staged)) := by
    refine withdraws_disabledAt _ _ ?_
    cases hon : s.isEnabled q
    case true => exact .inl ((State.portOrder_mem _ _ q).mpr ((s.disables_mem staged q).mpr ⟨hon, hstaged⟩))
    case false =>
      refine .inr fun _ => { h hon with inbound := ?_ }
      rw [State.applySettings, get_ofFn]
      split <;> exact (h hon).inbound
  have hspared : DisabledAt q (s.sparing (s.enablesAnew staged)
      ((s.applySettings staged).withdrawAll (s.disables staged))) := by
    have hnot : ¬inSet (s.enablesAnew staged) q = true := fun e => by
      rw [((s.enablesAnew_mem staged q).mp e).1] at hstaged
      cases hstaged
    intro hq
    refine { hwithdrawn hq with notices := ?_, edges := ?_ }
    · rw [State.sparing, get_ofFn, if_neg hnot]
      exact (hwithdrawn hq).notices
    · rw [State.sparing, get_ofFn, if_neg hnot]
      exact (hwithdrawn hq).edges
  exact (hspared.endClaim.raiseAll .settingsChanged (only p)) hq

theorem DisabledAt.commitSettings {q : Port} {s : State} (h : DisabledAt q s) (p : Port) :
    DisabledAt q (commitSettings p s) := by
  unfold Machine.commitSettings
  split
  · exact h.record _ _ _
  split
  · exact h.record _ _ _
  unfold State.recordCommit
  split
  · exact (h.commit p _).record _ _ _
  · exact h.commit p _

/-! ### Device reset -/

/-- A device reset enables every port (R135). -/
theorem disabledAt_deviceReset (q : Port) (s : State) (resetn : Bool) : DisabledAt q (s.deviceReset resetn) := by
  have hall : ∀ q : Port, State.reset.isEnabled q = true := by decide
  intro hq
  have hreset : State.reset.isEnabled q = false := hq
  rw [hall q] at hreset
  cases hreset

end Sys2Proof.Machine
end

section
/-! PROOFS. A disabled port stays stripped across every row and across a step (R151): at a disabled port an action, a
stream and a take are refused, and the port that acts is enabled. -/

namespace Sys2Proof.Machine

/-- The end of a byte leaves a port in the data phase of its stream. -/
theorem byteEnd_taken {s : State} {p : Port} {c : Cmd} {ops : List Byte}
    (hl : s.pius[p].link = .body c ops .streaming) : ¬(s.byteEnd p).pius[p].Untaken := by
  rw [State.byteEnd_piu]
  exact Piu.taken_of_streaming hl

theorem holdPnDO_disabledAt {q p : Port} {level : Option Bool} {a : Answer} (ha : Leaves (DisabledAt q) a) :
    Leaves (DisabledAt q) (Answer.holdPnDO p level a) := by
  cases a with
  | next t => exact (leaves_next _ _).mpr ((ha t rfl).setWire _ _)
  | fault f => simp [Answer.holdPnDO]
  | refused r => simp [Answer.holdPnDO]

section Rows
variable {q : Port} {s : State} (h : DisabledAt q s)
include h

/-! ### The course of a command -/

theorem ignoredBeat_disabledAt (p : Port) (b : Beat) : Leaves (DisabledAt q) (ignoredBeat p b s) := by
  cases b <;> simp [ignoredBeat, h, h.deselect]

theorem codeWhole_disabledAt {c : Cmd} {p : Port} {enter : List Byte → State → State}
    (henter : DisabledAt q (enter [] s)) : Leaves (DisabledAt q) (codeWhole c p enter s) := by
  have hoperand := h.setLink (p := p) fun _ _ => Link.untaken_operand c []
  unfold codeWhole
  repeat' split
  all_goals simp [h.ignoring, henter, hoperand]

theorem operandWhole_disabledAt {c : Cmd} {p : Port} {ops : List Byte} {x : Byte} {enter : List Byte → State → State}
    (henter : ∀ ops, DisabledAt q (enter ops s)) : Leaves (DisabledAt q) (operandWhole c p ops x enter s) := by
  unfold operandWhole
  split
  · exact (leaves_next _ _).mpr (h.setLink fun _ _ => Link.untaken_operand c (ops ++ [x]))
  · simpa using henter _

theorem bodyRise_disabledAt {c : Cmd} {p : Port} {ops : List Byte} {b : Body} {close : List Byte → Body → State → State}
    (hclose : ∀ ops b, DisabledAt q (close ops b (s.deselect p))) : DisabledAt q (bodyRise c p ops b close s) := by
  cases b
  case ended => exact h.deselect p
  case refused e => exact (h.deselect p).record p _ e
  all_goals exact hclose _ _

/-- The course of a command keeps what its entry into BODY and its close at select rise keep. -/
theorem linkBeat_disabledAt {c : Cmd} {p : Port} {b : Beat} {enter : List Byte → State → State}
    {close : List Byte → Body → State → State} (henter : ∀ ops, DisabledAt q (enter ops s))
    (hclose : ∀ ops body, DisabledAt q (close ops body (s.deselect p))) :
    Leaves (DisabledAt q) (linkBeat c p b enter close s) := by
  unfold linkBeat
  split
  · simp
  split
  · simpa using h
  split
  · simp
  split
  · exact ignoredBeat_disabledAt h p b
  · split
    · exact ignoredBeat_disabledAt h p b
    · simp
  · cases b
    case code => exact codeWhole_disabledAt h (henter [])
    all_goals simp
  · cases b
    case operand =>
      dsimp only
      split
      · exact operandWhole_disabledAt h henter
      · simp
    all_goals simp
  · next c' ops body hl =>
    cases b
    case pass =>
      dsimp only
      split
      · exact (leaves_next _ _).mpr
          (h.setLink fun _ hu => Link.untaken_body (Body.untaken_pass (hu.2 c' ops body hl)) c ops)
      · simp
    case rise =>
      dsimp only
      split
      · exact (leaves_next _ _).mpr (bodyRise_disabledAt h hclose)
      · simp
    all_goals simp

theorem queryBeat_disabledAt {c : Cmd} {p : Port} {b : Beat} {always : Bool}
    {copy : List Byte → State → List Byte × List Byte} : Leaves (DisabledAt q) (queryBeat c p b always copy s) := by
  refine linkBeat_disabledAt h (fun ops => ?_) (fun _ _ => h.deselect p)
  split <;> exact h.body (by trivial) p c ops

/-- An action is taken from an enabled port. -/
theorem actionBeat_disabledAt {c : Cmd} {p : Port} {b : Beat} {act : List Byte → State → State}
    (hact : (s.deselect p).isEnabled p = true → ∀ ops, DisabledAt q (act ops (s.deselect p))) :
    Leaves (DisabledAt q) (actionBeat c p b act s) := by
  refine linkBeat_disabledAt h (fun ops => h.body (by trivial) p c ops) (fun ops _ => ?_)
  split
  · next hp => exact hact hp ops
  · exact (h.deselect p).record _ _ _

theorem recordedBeat_disabledAt {c : Cmd} {p : Port} {b : Beat} {act : List Byte → State → State × Ending}
    (hact : (s.deselect p).isEnabled p = true → ∀ ops, DisabledAt q (act ops (s.deselect p)).1) :
    Leaves (DisabledAt q) (recordedBeat c p b act s) :=
  actionBeat_disabledAt h fun hp ops => (hact hp ops).record _ _ _

theorem chainBeat_disabledAt {c : Cmd} {p : Port} {b : Beat} {act : ChainNo → List Byte → State → State × Ending}
    (hact : (s.deselect p).isEnabled p = true → ∀ n ops, (s.deselect p).chainCheck c p ops = .ok n →
      DisabledAt q (act n ops (s.deselect p)).1) :
    Leaves (DisabledAt q) (chainBeat c p b act s) := by
  refine recordedBeat_disabledAt h fun hp ops => ?_
  split
  · exact h.deselect p
  · next n hn => exact hact hp n ops hn

/-- A take fixes its entry at an enabled port. -/
theorem takeBeat_disabledAt {c : Cmd} {p : Port} {b : Beat} {fixed : State → Body}
    {decide : Body → State → State × Ending} (hdecide : ∀ body, DisabledAt q (decide body (s.deselect p)).1) :
    Leaves (DisabledAt q) (takeBeat c p b fixed decide s) := by
  refine linkBeat_disabledAt h (fun ops => ?_) (fun _ body => (hdecide body).record _ _ _)
  split
  · next hp =>
    refine h.setLink fun hoff => ?_
    rw [hp] at hoff
    cases hoff
  · exact h.body (by trivial) p c ops

/-! ### Streams (R29, R34, R51) -/

/-- A stream begins at an enabled port. -/
theorem DisabledAt.takeStream (c : Cmd) (kind : StreamKind) (p : Port) (ops : List Byte) :
    DisabledAt q (s.takeStream c kind p ops) := by
  have hrefused (e : Ending) : DisabledAt q (s.refuseStream c p ops e) := h.body (by trivial) p c ops
  unfold State.takeStream
  generalize (if kind = .append then 0 else (opWord ops 2).toNat) = offset
  dsimp only
  split
  · exact hrefused _
  next hp =>
  split
  · exact hrefused _
  split
  · exact hrefused _
  · refine (h.loadLease _).setPiu fun hoff => absurd ?_ hp
    rw [Bool.not_eq_true']
    exact hoff

theorem DisabledAt.appendAccept {p : Port} (hp : ¬s.pius[p].Untaken) (st : Stream) (x : Byte) :
    DisabledAt q (s.appendAccept p st x) :=
  (h.setRec_same (n := st.ref.num)
    (r := { s.recs[st.ref.num] with length := s.recs[st.ref.num].length + 1 }) rfl).setPiu
    fun _ hu => absurd hu hp

theorem DisabledAt.appendByte {p : Port} (hp : ¬s.pius[p].Untaken) (st : Stream) (x : Byte) :
    DisabledAt q (s.appendByte p st x) := by
  obtain ⟨why, e⟩ | ⟨-, e⟩ | ⟨-, -, bs, t, halloc, e⟩ := appendByte_cases p st x s <;> rw [e]
  · exact h.setPiu fun _ hu => absurd hu hp
  · exact h.appendAccept hp st x
  · obtain ⟨-, -, rfl⟩ := allocate_some halloc
    exact ((h.freeFalls _).grow _ p bs).appendAccept hp st x

theorem DisabledAt.rewriteByte {p : Port} (hp : ¬s.pius[p].Untaken) (st : Stream) (x : Byte) :
    DisabledAt q (s.rewriteByte p st x) := by
  unfold State.rewriteByte
  dsimp only
  split <;> exact h.setPiu fun _ hu => absurd hu hp

theorem readNext_disabledAt {p : Port} (hp : ¬s.pius[p].Untaken) (st : Stream) :
    Leaves (DisabledAt q) (s.readNext p st) := by
  unfold State.readNext
  dsimp only
  split
  · simp
  · exact (leaves_next _ _).mpr (h.setPiu fun _ hu => absurd hu hp)

theorem dataByteIn_disabledAt {c : Cmd} {p : Port} {take : Stream → State → State}
    (htake : ∀ st, ¬(s.byteEnd p).pius[p].Untaken → DisabledAt q (take st (s.byteEnd p))) :
    Leaves (DisabledAt q) (dataByteIn c p take s) := by
  have hb := h.byteEnd p
  unfold dataByteIn
  split
  · simpa using h
  split
  · simp
  split
  · simpa using h
  · simp
  · simp
  · split
    · simpa using h
    · simp
  next hl =>
  split
  · simp
  split
  · split
    · simpa using hb
    split
    · simp
    · exact (leaves_next _ _).mpr (htake _ (byteEnd_taken hl))
  all_goals simpa using hb

theorem execReadData_disabledAt (p : Port) (b : Beat) : Leaves (DisabledAt q) (execReadData p b s) := by
  unfold execReadData
  split
  · next hl _ =>
    split
    · simpa using h
    split
    · simp
    · exact readNext_disabledAt (h.byteEnd p) (byteEnd_taken hl) _
  · exact linkBeat_disabledAt h (fun _ => h.takeStream _ _ _ _) fun _ _ => h.deselect p

theorem execReadDataByte_disabledAt (p : Port) : Leaves (DisabledAt q) (execReadDataByte p s) := by
  have hb := h.byteEnd p
  unfold execReadDataByte
  split
  · simpa using h
  split
  · simp
  split
  · simpa using h
  · simp
  · simp
  · split
    · simpa using h
    · simp
  next hl =>
  split
  · simp
  split
  · split
    · simp
    · exact readNext_disabledAt hb (byteEnd_taken hl) _
  all_goals simpa using hb

theorem DisabledAt.finishStream (p : Port) (st : Stream) : DisabledAt q (s.finishStream p st) := by
  have hover : DisabledAt q (s.setPiu p { s.pius[p] with stream := none, staging := Staging.reset }) :=
    h.setPiu fun _ hu => ⟨fun _ hst => (by cases hst), hu.2⟩
  exact hover.record _ _ _

theorem DisabledAt.closeStream {p : Port} {st : Stream} (hst : s.pius[p].stream = some st) :
    DisabledAt q (s.closeStream p st) := by
  unfold State.closeStream
  split
  · refine (h.deselect p).setPiu fun _ hu => ⟨fun st' hst' => ?_, hu.2⟩
    obtain rfl := Option.some.inj hst'
    have hstream : (s.deselect p).pius[p].stream = some st := by
      rw [State.deselect_pius, get_set, if_pos rfl]
      exact hst
    exact hu.1 st hstream
  · exact (h.deselect p).finishStream p st

theorem execStreamClose_disabledAt (p : Port) (b : CloseBeat) : Leaves (DisabledAt q) (execStreamClose p b s) := by
  have hd := h.deselect p
  cases b <;> dsimp only [execStreamClose]
  case rise =>
    unfold streamRise
    split
    · simpa using h
    split
    · simpa using hd
    · simp
    · simp
    · split
      · simpa using hd
      · simp
    split
    · simp
    split
    · split
      · next hst => exact (leaves_next _ _).mpr (h.closeStream hst)
      · simp
    · simpa using hd.record _ _ _
    · simpa using hd
    all_goals simp
  case record =>
    unfold streamRecord
    repeat' split
    all_goals simp [h, h.finishStream]

/-! ### The rows of a command -/

theorem commandBeat_disabledAt (c : Cmd) (p : Port) (b : Beat) : Leaves (DisabledAt q) (commandBeat c p b s) := by
  have hd := h.deselect p
  cases c
  case appendData | rewriteData => exact linkBeat_disabledAt h (fun _ => h.takeStream _ _ _ _) fun _ _ => hd
  case readData => exact execReadData_disabledAt h p b
  case openChain => exact recordedBeat_disabledAt h fun hp _ => hd.openChain hp _
  case extendChain => exact chainBeat_disabledAt h fun _ n _ _ => hd.extendChain p n _
  case discardChain => exact chainBeat_disabledAt h fun _ n _ _ => hd.vacate n
  case renewLease => exact chainBeat_disabledAt h fun _ n _ _ => hd.loadLease n
  case sealChain => exact chainBeat_disabledAt h fun hp _ _ _ => hd.placeSeal hp _
  case unsealChain => exact chainBeat_disabledAt h fun hp _ _ _ => hd.unseal hp _
  case handChain => exact chainBeat_disabledAt h fun _ n _ _ => hd.handChain p n _
  case takeInbound => exact takeBeat_disabledAt h fun body => hd.takeInbound p body
  case takeNotice => exact takeBeat_disabledAt h fun body => hd.takeNotice p body
  case releaseChain => exact chainBeat_disabledAt h fun _ n _ _ => hd.releaseChain p n _
  case adoptChain => exact chainBeat_disabledAt h fun _ n _ _ => hd.adoptChain p n
  case recallChain =>
    exact chainBeat_disabledAt h fun hp _ _ hn => hd.recallChain fun _ _ _ hl => chainCheck_origin hn hl ▸ hp
  case setEnables => exact recordedBeat_disabledAt h fun hp _ => hd.setEnables hp _
  case acknowledgeAttention => exact recordedBeat_disabledAt h fun _ _ => hd.acknowledgeAttention p _
  case claimSettings => exact recordedBeat_disabledAt h fun hp _ => hd.claimSettings hp
  case writeSetting => exact recordedBeat_disabledAt h fun _ _ => hd.writeSetting p _ _
  case abandonSettings => exact recordedBeat_disabledAt h fun _ _ => hd.abandonSettings p
  case commitSettings => exact actionBeat_disabledAt h fun _ _ => hd.commitSettings p
  case portReset => exact actionBeat_disabledAt h fun _ _ => hd.withdraw p portResetResult
  all_goals exact queryBeat_disabledAt h

/-! ### The link's own rows -/

theorem execSelectRise_disabledAt (p : Port) : Leaves (DisabledAt q) (execSelectRise p s) := by
  unfold execSelectRise
  repeat' split
  all_goals simp [h, h.deselect]

theorem execFraming_disabledAt (p : Port) (bits : Fin 8) : Leaves (DisabledAt q) (execFraming p bits s) := by
  unfold execFraming
  repeat' split
  all_goals simp [h, h.deselect, h.linkError]

theorem execUnknownCommand_disabledAt (p : Port) (b : UnknownBeat) :
    Leaves (DisabledAt q) (execUnknownCommand p b s) := by
  unfold execUnknownCommand
  repeat' split
  all_goals simp [h, h.deselect, h.ignoring, h.byteEnd, h.linkError]

theorem execAppendDataByte_disabledAt (p : Port) (x : Byte) : Leaves (DisabledAt q) (execAppendDataByte p x s) :=
  dataByteIn_disabledAt h fun st hp => (h.byteEnd p).appendByte hp st x

theorem execRewriteDataByte_disabledAt (p : Port) (x : Byte) : Leaves (DisabledAt q) (execRewriteDataByte p x s) :=
  dataByteIn_disabledAt h fun st hp => (h.byteEnd p).rewriteByte hp st x

/-- The byte that the eighth bit makes whole is an event of its row. -/
theorem byteWhole_disabledAt (p : Port) (x : Byte) : Leaves (DisabledAt q) (byteWhole p x s) := by
  unfold byteWhole
  split
  · simpa using h
  · split
    · exact commandBeat_disabledAt h _ p _
    · exact execUnknownCommand_disabledAt h p _
  · exact commandBeat_disabledAt h _ p _
  · unfold bodyByte
    split
    · exact execAppendDataByte_disabledAt h p x
    split
    · exact execRewriteDataByte_disabledAt h p x
    split
    · exact execReadDataByte_disabledAt h p
    · exact commandBeat_disabledAt h _ p _
  · exact execUnknownCommand_disabledAt h p _

theorem execSelectFall_disabledAt (w : PortEdge) : Leaves (DisabledAt q) (execSelectFall w s) := by
  unfold execSelectFall
  split
  · unfold selectFalls
    split
    · simp
    · exact (leaves_next _ _).mpr (h.quiet (.inr (.inr (.inl rfl))) rfl)
  · unfold clockRises
    split
    · simpa using h
    split
    · exact (leaves_next _ _).mpr (h.setWire _ _)
    · exact holdPnDO_disabledAt (byteWhole_disabledAt (h.byteEnd _) _ _)
  · unfold clockFalls
    split
    · simpa using h
    · exact (leaves_next _ _).mpr (h.setWire _ _)

/-! ### The part's own rows -/

/-- A stream whose last line is written keeps what it has earned. -/
theorem execStagingLineWrite_disabledAt (p : Port) : Leaves (DisabledAt q) (execStagingLineWrite p s) := by
  unfold execStagingLineWrite
  split
  · simpa using h
  split
  · simp
  refine (leaves_next _ _).mpr ?_
  have hstore : DisabledAt q { s with
      store := Memory.writeCells s.store s.pius[p].staging.base s.pius[p].staging.cells.toList
      arbPos := .piu p } := h.congr rfl
  refine hstore.setPiu fun _ hu => ⟨fun st hst => ?_, hu.2⟩
  obtain ⟨st', hst', rfl⟩ := Option.map_eq_some_iff.mp hst
  unfold Stream.settle
  split
  · exact nofun
  · exact hu.1 st' hst'

theorem execStagingLineFill_disabledAt (p : Port) : Leaves (DisabledAt q) (execStagingLineFill p s) := by
  unfold execStagingLineFill
  split
  · simpa using h
  split
  · simp
  have harb : DisabledAt q { s with arbPos := .piu p } := h.congr rfl
  exact (leaves_next _ _).mpr (harb.quiet (.inl rfl) rfl)

theorem execSealLineRead_disabledAt : Leaves (DisabledAt q) (execSealLineRead s) := by
  unfold execSealLineRead
  split
  · split
    · simpa using h
    split
    · simp
    · exact (leaves_next _ _).mpr (h.congr rfl)
  · simpa using h

theorem execSealCompletion_disabledAt : Leaves (DisabledAt q) (execSealCompletion s) := by
  unfold execSealCompletion
  split
  · next run _ =>
    split
    · exact (leaves_next _ _).mpr ((h.complete run).congr rfl)
    · simpa using h
  · simpa using h

theorem execChainLeaseExpiry_disabledAt (n : ChainNo) : Leaves (DisabledAt q) (execChainLeaseExpiry n s) := by
  unfold execChainLeaseExpiry
  split
  · split
    · exact (leaves_next _ _).mpr (h.expire n)
    · exact (leaves_next _ _).mpr (h.congr rfl)
  all_goals simpa using h

theorem execClaimLeaseExpiry_disabledAt : Leaves (DisabledAt q) (execClaimLeaseExpiry s) := by
  unfold execClaimLeaseExpiry
  split
  · exact (leaves_next _ _).mpr h.lapse
  all_goals simpa using h

theorem execTick_disabledAt : Leaves (DisabledAt q) (execTick s) := by
  unfold execTick
  split
  · exact (leaves_next _ _).mpr (h.congr rfl)
  · simpa using h

theorem execRefclkPeriod_disabledAt : Leaves (DisabledAt q) (execRefclkPeriod s) := by
  unfold execRefclkPeriod
  split
  · simpa using h
  split <;> exact (leaves_next _ _).mpr (h.congr rfl)

theorem execClearingStart_disabledAt : Leaves (DisabledAt q) (execClearingStart s) := by
  unfold execClearingStart
  split <;> exact (leaves_next _ _).mpr (h.congr rfl)

theorem execClearLineWrite_disabledAt : Leaves (DisabledAt q) (execClearLineWrite s) := by
  unfold execClearLineWrite
  split
  · split
    · simp
    split
    · exact (leaves_next _ _).mpr (h.congr (by simp [State.holdings, State.fillLine]))
    · exact (leaves_next _ _).mpr (h.congr (by simp [State.holdings, State.completeClearing, State.fillLine]))
  · simpa using h

theorem execInitializationComplete_disabledAt : Leaves (DisabledAt q) (execInitializationComplete s) := by
  unfold execInitializationComplete
  split
  · simpa using h
  · exact (leaves_next _ _).mpr (h.congr rfl)

/-! ### Every row, and a step -/

theorem exec_disabledAt (i : Instr) : Leaves (DisabledAt q) (exec i s) := by
  have hcommand (c : Cmd) (p : Port) (b : Beat) : Leaves (DisabledAt q) (exec (row c p b) s) := by
    rw [exec_row]
    exact commandBeat_disabledAt h c p b
  cases i
  case powerOn | resetnAssertion => exact (leaves_next _ _).mpr (disabledAt_deviceReset q s _)
  case resetnRelease => exact (leaves_next _ _).mpr (h.congr rfl)
  case initializationComplete => exact execInitializationComplete_disabledAt h
  case selectFall w => exact execSelectFall_disabledAt h w
  case framing p bits => exact execFraming_disabledAt h p bits
  case unknownCommand p b => exact execUnknownCommand_disabledAt h p b
  case selectRise p => exact execSelectRise_disabledAt h p
  case appendDataByte p x => exact execAppendDataByte_disabledAt h p x
  case rewriteDataByte p x => exact execRewriteDataByte_disabledAt h p x
  case readDataByte p => exact execReadDataByte_disabledAt h p
  case streamClose p b => exact execStreamClose_disabledAt h p b
  case stagingLineWrite p => exact execStagingLineWrite_disabledAt h p
  case stagingLineFill p => exact execStagingLineFill_disabledAt h p
  case sealLineRead => exact execSealLineRead_disabledAt h
  case sealCompletion => exact execSealCompletion_disabledAt h
  case chainLeaseExpiry n => exact execChainLeaseExpiry_disabledAt h n
  case claimLeaseExpiry => exact execClaimLeaseExpiry_disabledAt h
  case tick => exact execTick_disabledAt h
  case refclkPeriod => exact execRefclkPeriod_disabledAt h
  case clearingStart => exact execClearingStart_disabledAt h
  case clearLineWrite => exact execClearLineWrite_disabledAt h
  case readResult p b => exact hcommand .readResult p b
  case readAttention p b => exact hcommand .readAttention p b
  case readQueueStatus p b => exact hcommand .readQueueStatus p b
  case readFreeStatus p b => exact hcommand .readFreeStatus p b
  case readChainInfo p b => exact hcommand .readChainInfo p b
  case readSettings p b => exact hcommand .readSettings p b
  case identify p b => exact hcommand .identify p b
  case openChain p b => exact hcommand .openChain p b
  case appendData p b => exact hcommand .appendData p b
  case rewriteData p b => exact hcommand .rewriteData p b
  case readData p b => exact hcommand .readData p b
  case extendChain p b => exact hcommand .extendChain p b
  case sealChain p b => exact hcommand .sealChain p b
  case unsealChain p b => exact hcommand .unsealChain p b
  case discardChain p b => exact hcommand .discardChain p b
  case renewLease p b => exact hcommand .renewLease p b
  case handChain p b => exact hcommand .handChain p b
  case takeInbound p b => exact hcommand .takeInbound p b
  case releaseChain p b => exact hcommand .releaseChain p b
  case adoptChain p b => exact hcommand .adoptChain p b
  case recallChain p b => exact hcommand .recallChain p b
  case takeNotice p b => exact hcommand .takeNotice p b
  case setEnables p b => exact hcommand .setEnables p b
  case acknowledgeAttention p b => exact hcommand .acknowledgeAttention p b
  case claimSettings p b => exact hcommand .claimSettings p b
  case writeSetting p b => exact hcommand .writeSetting p b
  case commitSettings p b => exact hcommand .commitSettings p b
  case abandonSettings p b => exact hcommand .abandonSettings p b
  case portReset p b => exact hcommand .portReset p b

/-- The queue of commands is no port's, and an empty one idles. -/
theorem step_disabledAt : Leaves (DisabledAt q) (step s) := by
  unfold step
  split
  · simpa using h
  · next rest _ => exact exec_disabledAt (h.congr (t := { s with pending := rest }) rfl) _

end Rows
end Sys2Proof.Machine

namespace Sys2Proof.Proofs
open Machine

/-- Settles O59: port by port. A disabled port is given nothing, since notices and requests for it are dropped, chains are
handed to enabled ports and its commands are refused; a port that a commit disables is stripped in its withdrawal. -/
theorem disabledPortStripped : Obligations.DisabledPortStripped := fun s t ht h =>
  (disabledInv_iff t).mpr fun q => step_disabledAt ((disabledInv_iff s).mp h q) t ht

end Sys2Proof.Proofs
end

section
/-! PROOFS. Commands refused at a disabled port, and what a command that is refused or ended does until its select rise
(R34, R51, R77, R100, R150, R151, R156). -/

namespace Sys2Proof.Machine

/-! ### The refusals of a disabled port (R151) -/

section Disabled
variable {s : State} {p : Port} (hd : s.isEnabled p = false)
include hd

/-- An action from a disabled port is not executed. -/
theorem exec_action_disabled {c : Cmd} {ops : List Byte} (hc : c.cls = .action) (h : InBody s p c ops .await) :
    exec (row c p .rise) s = .next (s.answers p c.code s.disabledEnding) := by
  have hns : c.cls ≠ .stream := by rw [hc]; exact nofun
  rw [exec_row]
  cases c
  case readResult | readAttention | readQueueStatus | readFreeStatus | readChainInfo | readSettings | identify |
    appendData | rewriteData | readData | takeInbound | takeNotice => cases hc
  all_goals exact actionBeat_disabled h hd hns _

theorem queryBeat_code_disabled {c : Cmd} (h : AtCommand s p) (hc : c.operandCount = 0)
    (copy : List Byte → State → List Byte × List Byte) :
    queryBeat c p .code false copy s = .next (s.setLink p (.body c [] (.refused s.disabledEnding))) := by
  unfold queryBeat
  rw [linkBeat_code h, if_pos hc]
  simp [hd]

theorem queryBeat_operand_disabled {c : Cmd} {ops : List Byte} (x : Byte) (h : AtOperand s p c ops)
    (hlast : ops.length + 1 = c.operandCount) (copy : List Byte → State → List Byte × List Byte) :
    queryBeat c p (.operand x) false copy s =
      .next (s.setLink p (.body c (ops ++ [x]) (.refused s.disabledEnding))) := by
  unfold queryBeat
  rw [linkBeat_operand x h (by omega), if_neg (by omega)]
  simp [hd]

theorem takeBeat_code_disabled {c : Cmd} (h : AtCommand s p) (hc : c.operandCount = 0) (fixed : State → Body)
    (decide : Body → State → State × Ending) :
    takeBeat c p .code fixed decide s = .next (s.setLink p (.body c [] (.refused s.disabledEnding))) := by
  unfold takeBeat
  rw [linkBeat_code h, if_pos hc]
  simp [hd]

/-- A stream from a disabled port is refused before its other checks (R34). -/
theorem exec_stream_disabled {kind : StreamKind} {ops : List Byte} (x : Byte) (h : AtOperand s p kind.cmd ops)
    (hlast : ops.length + 1 = kind.cmd.operandCount) :
    exec (row kind.cmd p (.operand x)) s =
      .next (s.setLink p (.body kind.cmd (ops ++ [x]) (.refused s.disabledEnding))) := by
  rw [exec_streamOperand x h hlast]
  simp only [State.takeStream, hd]
  rfl

end Disabled

/-! ### The course of a refused or ended command -/

/-- Every command but a stream runs the shared course of a link command. -/
theorem commandBeat_eq_linkBeat {c : Cmd} (hc : c.cls ≠ .stream) (p : Port) :
    ∃ enter close, ∀ b s, commandBeat c p b s = linkBeat c p b enter close s := by
  cases c
  case appendData | rewriteData | readData => exact absurd rfl hc
  all_goals exact ⟨_, _, fun _ _ => rfl⟩

section Over
variable {s : State} {p : Port} {c : Cmd} {ops : List Byte} {b : Body} (h : InBody s p c ops b)
include h

/-- A data byte in a transaction whose stream is not under way is discarded. -/
theorem dataByteIn_discards (hb : AtByte s p) (hover : b ≠ .streaming) (take : Stream → State → State) :
    dataByteIn c p take s = .next (s.byteEnd p) := by
  obtain ⟨hsel, hlink⟩ := h
  cases b
  case streaming => exact absurd rfl hover
  all_goals cases hst : s.pius[p].stream <;> simp [-Fin.getElem_fin, dataByteIn, State.midByte, hsel, hb, hlink, hst]

/-- A byte of a command whose BODY it leaves as it is. -/
theorem linkBeat_pass_same (hb : AtByte s p) (hc : beatOk c .pass = true) (hsame : b.pass = b)
    (enter : List Byte → State → State) (close : List Byte → Body → State → State) :
    linkBeat c p .pass enter close s = .next (s.byteEnd p) := by
  rw [linkBeat_pass h hb hc, hsame, State.setLink_same h.2]

theorem exec_pass_same (hb : AtByte s p) (hc : c.cls ≠ .stream) (hsame : b.pass = b) :
    exec (row c p .pass) s = .next (s.byteEnd p) := by
  obtain ⟨enter, close, hcourse⟩ := commandBeat_eq_linkBeat hc p
  have hok : beatOk c .pass = true := by
    cases c
    case appendData | rewriteData => exact absurd rfl hc
    all_goals rfl
  rw [exec_row, hcourse, linkBeat_pass_same h hb hok hsame]

theorem exec_rise_body (hc : c.cls ≠ .stream) :
    ∃ close, exec (row c p .rise) s = .next (bodyRise c p ops b close s) := by
  obtain ⟨enter, close, hcourse⟩ := commandBeat_eq_linkBeat hc p
  exact ⟨close, by rw [exec_row, hcourse, linkBeat_rise h hc]⟩

end Over

/-- The dummy byte of a Read Data that is not under way. -/
theorem execReadData_pass_over {s : State} {p : Port} {ops : List Byte} {b : Body} (h : InBody s p .readData ops b)
    (hb : AtByte s p) (hover : b ≠ .streaming) (hsame : b.pass = b) :
    execReadData p .pass s = .next (s.byteEnd p) := by
  unfold execReadData
  split
  · next hl _ =>
    rw [h.2] at hl
    cases hl
    exact absurd rfl hover
  · exact linkBeat_pass_same h hb rfl hsame _ _

/-- A data byte out of a Read Data that is not under way. -/
theorem execReadDataByte_over {s : State} {p : Port} {ops : List Byte} {b : Body} (h : InBody s p .readData ops b)
    (hb : AtByte s p) (hover : b ≠ .streaming) : execReadDataByte p s = .next (s.byteEnd p) := by
  obtain ⟨hsel, hlink⟩ := h
  cases b
  case streaming => exact absurd rfl hover
  all_goals
    cases hst : s.pius[p].stream <;>
      simp [-Fin.getElem_fin, execReadDataByte, State.midByte, hsel, hb, hlink, hst]

/-- Every byte of a command that is not under way is discarded. -/
theorem exec_bodyRows_over {s : State} {p : Port} {c : Cmd} {ops : List Byte} {b : Body} {x : Byte} {i : Instr}
    (h : InBody s p c ops b) (hb : AtByte s p) (hover : b ≠ .streaming) (hsame : b.pass = b)
    (hi : i ∈ bodyRows c p x) : exec i s = .next (s.byteEnd p) := by
  by_cases hc : c.cls = .stream
  · cases c
    case appendData =>
      obtain rfl := List.mem_singleton.mp hi
      exact dataByteIn_discards h hb hover _
    case rewriteData =>
      obtain rfl := List.mem_singleton.mp hi
      exact dataByteIn_discards h hb hover _
    case readData =>
      obtain rfl | hi := List.mem_cons.mp hi
      · exact execReadData_pass_over h hb hover hsame
      · obtain rfl := List.mem_singleton.mp hi
        exact execReadDataByte_over h hb hover
    all_goals cases hc
  · have hrow : i = row c p .pass := by
      cases c
      case appendData | rewriteData | readData => exact absurd rfl hc
      all_goals exact List.mem_singleton.mp hi
    rw [hrow, exec_pass_same h hb hc hsame]

/-- The row of a command's select rise. -/
def closeRow (c : Cmd) (p : Port) : Instr := if c.cls = .stream then .streamClose p .rise else row c p .rise

theorem exec_closeRow_refused {s : State} {p : Port} {c : Cmd} {ops : List Byte} {e : Ending}
    (h : InBody s p c ops (.refused e)) : exec (closeRow c p) s = .next (s.answers p c.code e) := by
  unfold closeRow
  split
  · next hc =>
    obtain ⟨hsel, hlink⟩ := h
    simp [-Fin.getElem_fin, exec, execStreamClose, streamRise, hsel, hlink, hc, State.deselect_record]
  · next hc =>
    obtain ⟨close, hrise⟩ := exec_rise_body h hc
    rw [hrise, bodyRise, State.deselect_record]

theorem exec_closeRow_ended {s : State} {p : Port} {c : Cmd} {ops : List Byte} (h : InBody s p c ops .ended) :
    exec (closeRow c p) s = .next (s.deselect p) := by
  unfold closeRow
  split
  · next hc =>
    obtain ⟨hsel, hlink⟩ := h
    simp [-Fin.getElem_fin, exec, execStreamClose, streamRise, hsel, hlink, hc]
  · next hc =>
    obtain ⟨close, hrise⟩ := exec_rise_body h hc
    rw [hrise, bodyRise]

end Sys2Proof.Machine

namespace Sys2Proof.Proofs
open Machine

/-- Settles O10: the refusals of a disabled port by class, and the bytes and the select rise of a refused and of an ended
command. -/
theorem disabledRefused : Obligations.DisabledRefused := by
  refine fun s p => ⟨fun hd => ⟨fun c ops hc h => exec_action_disabled hd hc h, fun c hc h => ?_,
    fun c ops x hc h hlast => ?_⟩, fun c ops e h => ⟨?_, ?_, exec_closeRow_refused h⟩,
    fun c ops h => ⟨?_, ?_, exec_closeRow_ended h⟩⟩
  · simp only [List.mem_cons, List.not_mem_nil, or_false] at hc
    obtain rfl | rfl | rfl | rfl | rfl := hc
    · exact queryBeat_code_disabled hd h rfl _
    · exact queryBeat_code_disabled hd h rfl _
    · exact queryBeat_code_disabled hd h rfl _
    · exact takeBeat_code_disabled hd h rfl _ (Machine.takeInbound p)
    · exact takeBeat_code_disabled hd h rfl _ (Machine.takeNotice p)
  · simp only [List.mem_cons, List.not_mem_nil, or_false] at hc
    obtain rfl | rfl | rfl | rfl := hc
    · exact queryBeat_operand_disabled hd x h hlast _
    · exact exec_stream_disabled hd (kind := .append) x h hlast
    · exact exec_stream_disabled hd (kind := .rewrite) x h hlast
    · exact exec_stream_disabled hd (kind := .read) x h hlast
  · rw [State.pnDO_body h]
    rfl
  · exact fun x i hb hi => exec_bodyRows_over h hb nofun rfl hi
  · rw [State.pnDO_body h]
    rfl
  · exact fun x i hb hi => exec_bodyRows_over h hb nofun rfl hi

end Sys2Proof.Proofs
end

section
/-! PROOFS. Port Reset and the withdrawal of a port (R145 to R150): the order of its chains, the records they leave, the
port stripped, and what stays. -/

namespace Sys2Proof.Machine

/-! ### The order of the chains (log entry 8) -/

theorem State.withdrawOrder_nil {s : State} {p : Port} (h : ∀ n : ChainNo, s.recs[n].life.touches p = false) :
    s.withdrawOrder p = [] :=
  List.eq_nil_iff_forall_not_mem.mpr fun n hn => by
    rw [State.withdrawOrder_mem, h n] at hn
    cases hn

theorem State.withdrawOrder_singleton {s : State} {p : Port} {n : ChainNo} (hn : s.recs[n].life.touches p = true)
    (hsole : ∀ m : ChainNo, s.recs[m].life.touches p = true → m = n) : s.withdrawOrder p = [n] := by
  refine List.perm_singleton.mp ((List.perm_ext_iff_of_nodup (s.withdrawOrder_nodup p) (List.nodup_singleton n)).mpr
    fun m => ?_)
  rw [State.withdrawOrder_mem, List.mem_singleton]
  exact ⟨hsole m, fun e => e ▸ hn⟩

/-! ### One record (R146, R147) -/

section Record
variable {p : Port} {r : ChainRec}

theorem ChainRec.withdrawn_owned (ho : r.life.owner = some p) :
    r.withdrawn p = { gen := r.gen + 1, life := .vacant, length := 0, blocks := [] } := by
  unfold ChainRec.withdrawn
  split
  · next hl =>
    rw [hl] at ho
    cases ho
  all_goals exact if_pos ho

theorem ChainRec.withdrawn_last {d : Delivery} {l : Label} {k : Word} (hl : r.life = .delivering d l k)
    (hpend : (d.less p).pend = 0) (hhold : (d.less p).hold = 0) :
    r.withdrawn p = { gen := r.gen + 1, life := .vacant, length := 0, blocks := [] } := by
  have hlast : (d.leave p .withdrawn).finished = true := (Delivery.finished_iff _).mpr ⟨hpend, hhold⟩
  simp only [ChainRec.withdrawn, hl, hlast, if_true]

theorem ChainRec.withdrawn_stays {d : Delivery} {l : Label} {k : Word} (hl : r.life = .delivering d l k)
    (hstays : (d.less p).pend ≠ 0 ∨ (d.less p).hold ≠ 0) :
    r.withdrawn p = { r with life := .delivering (d.less p) l k } := by
  have hmore : ¬(d.leave p .withdrawn).finished = true := fun e => by
    obtain ⟨hpend, hhold⟩ := (Delivery.finished_iff _).mp e
    exact hstays.elim (fun h => h hpend) fun h => h hhold
  simp only [ChainRec.withdrawn, hl, if_neg hmore]
  rfl

/-- The lease of a record that the withdrawal vacates is NONE. -/
theorem Lease.withdrawn_vacated {c : Lease} (h : (r.withdrawn p).gen = r.gen + 1) : Lease.withdrawn p r c = .none :=
  if_neg (h ▸ gen_succ_ne r.gen)

theorem Lease.withdrawn_kept {c : Lease} (h : (r.withdrawn p).gen = r.gen) : Lease.withdrawn p r c = c := if_pos h

end Record

/-! ### The records of a withdrawal -/

section Withdraw
variable {s : State} {p : Port} {res : ResultRec} {n : ChainNo}

theorem State.withdraw_record (h : s.recs[n].life.touches p = true) :
    (s.withdraw p res).recs[n] = s.recs[n].withdrawn p ∧
    (s.withdraw p res).leases[n] = Lease.withdrawn p s.recs[n] s.leases[n] := by
  have hchains := State.withdraw_records p _ (s.withdrawOrder_nodup p) s n
  rwa [if_pos ((s.withdrawOrder_mem p n).mpr h), if_pos ((s.withdrawOrder_mem p n).mpr h)] at hchains

theorem State.withdraw_record_other (h : s.recs[n].life.touches p = false) :
    (s.withdraw p res).recs[n] = s.recs[n] ∧ (s.withdraw p res).leases[n] = s.leases[n] := by
  have hnot : n ∉ s.withdrawOrder p := fun hn => by
    rw [State.withdrawOrder_mem, h] at hn
    cases hn
  have hchains := State.withdraw_records p _ (s.withdrawOrder_nodup p) s n
  rwa [if_neg hnot, if_neg hnot] at hchains

/-- A record that the withdrawal vacates, and its lease. -/
theorem State.withdraw_vacates (h : s.recs[n].life.touches p = true)
    (hv : s.recs[n].withdrawn p = { gen := s.recs[n].gen + 1, life := .vacant, length := 0, blocks := [] }) :
    (s.withdraw p res).recs[n] = { gen := s.recs[n].gen + 1, life := .vacant, length := 0, blocks := [] } ∧
    (s.withdraw p res).leases[n] = .none := by
  obtain ⟨hrec, hlease⟩ := State.withdraw_record (res := res) h
  exact ⟨hrec.trans hv, hlease.trans (Lease.withdrawn_vacated (by rw [hv]))⟩

theorem State.withdraw_departs {d : Delivery} {l : Label} {k : Word} (hl : s.recs[n].life = .delivering d l k)
    (h : s.recs[n].life.touches p = true) (hstays : (d.less p).pend ≠ 0 ∨ (d.less p).hold ≠ 0) :
    (s.withdraw p res).recs[n] = { s.recs[n] with life := .delivering (d.less p) l k } ∧
    (s.withdraw p res).leases[n] = s.leases[n] := by
  have hv := ChainRec.withdrawn_stays (r := s.recs[n]) hl hstays
  obtain ⟨hrec, hlease⟩ := State.withdraw_record (res := res) h
  exact ⟨hrec.trans hv, hlease.trans (Lease.withdrawn_kept (by rw [hv]))⟩

/-- A pending port or a holder takes part in the delivery. -/
theorem touches_of_participant {d : Delivery} {l : Label} {k : Word}
    (h : inSet d.pend p = true ∨ inSet d.hold p = true) : (Life.delivering d l k).touches p = true := by
  rw [← Bool.not_eq_false]
  intro hnone
  obtain ⟨hpend, hhold⟩ := (Life.touches_eq_false.mp hnone).2 d rfl
  simp [hpend, hhold] at h

/-! ### The claim and the PIUs (R149, R150) -/

/-- What one chain's turn keeps of the state, and the port's stripping leaves as well, a withdrawal keeps. -/
theorem State.withdraw_field {α : Type} (f : State → α) (hf : ∀ s n, f (State.withdrawFrom p s n) = f s)
    (hstrip : ∀ u : State, f (u.stripPort p res) = f u) : f (s.withdraw p res) = f s :=
  (hstrip _).trans (State.withdraw_keeps f p hf _ s)

/-- The port's queues, requests and enables. -/
theorem State.withdraw_port :
    (s.withdraw p res).inqs[p] = { entries := [], posted := 0, taken := 0, postedLap := 0, takenLap := 0 } ∧
    (s.withdraw p res).notqs[p] = [] ∧ (s.withdraw p res).edges[p] = 0 ∧ (s.withdraw p res).enables[p] = 0 := by
  refine ⟨?_, ?_, ?_, ?_⟩ <;> rw [State.withdraw, State.stripPort, get_set, if_pos rfl]
  rfl

theorem State.withdraw_claim :
    (s.withdraw p res).claim = (if s.claim.map (·.holder) = some p then none else s.claim) ∧
    (s.withdraw p res).claimLease = (if s.claim.map (·.holder) = some p then .none else s.claimLease) := by
  have hclaim := State.withdraw_keeps State.claim p (fun _ _ => by simp) (s.withdrawOrder p) s
  have hlease := State.withdraw_keeps State.claimLease p (fun _ _ => by simp) (s.withdrawOrder p) s
  constructor
  · rw [← hclaim]; rfl
  · rw [← hclaim, ← hlease]; rfl

theorem State.withdraw_claim_held {cl : Claim} (hcl : s.claim = some cl) (hp : cl.holder = p) :
    (s.withdraw p res).claim = none ∧ (s.withdraw p res).claimLease = .none := by
  have hheld : s.claim.map (·.holder) = some p := by rw [hcl, Option.map_some, hp]
  obtain ⟨hclaim, hlease⟩ := State.withdraw_claim (s := s) (p := p) (res := res)
  exact ⟨hclaim.trans (if_pos hheld), hlease.trans (if_pos hheld)⟩

theorem State.withdraw_claim_other (hother : ∀ cl, s.claim = some cl → cl.holder ≠ p) :
    (s.withdraw p res).claim = s.claim ∧ (s.withdraw p res).claimLease = s.claimLease := by
  have hheld : ¬s.claim.map (·.holder) = some p := fun e => by
    obtain ⟨cl, hcl, hp⟩ := Option.map_eq_some_iff.mp e
    exact hother cl hcl hp
  obtain ⟨hclaim, hlease⟩ := State.withdraw_claim (s := s) (p := p) (res := res)
  exact ⟨hclaim.trans (if_neg hheld), hlease.trans (if_neg hheld)⟩

/-- What a vacate keeps of a PIU, the chains of a withdrawal keep. -/
theorem State.withdrawChains_piu {α : Type} (f : Piu → α) (hf : ∀ (u : Piu) (r : ChainRef), f (u.revoke r) = f u)
    (s : State) (p q : Port) :
    f ((s.withdrawOrder p).foldl (State.withdrawFrom p) s).pius[q] = f s.pius[q] :=
  State.withdraw_keeps (fun t => f t.pius[q]) p (State.withdrawFrom_keeps f p q hf) _ s

theorem State.withdraw_piu (s : State) (p : Port) (res : ResultRec) :
    (s.withdraw p res).pius[p] =
      (((s.withdrawOrder p).foldl (State.withdrawFrom p) s).pius[p]).withdraw res := by
  rw [State.withdraw, State.stripPort, get_set, if_pos rfl]

theorem State.withdraw_piu_other {q : Port} (hq : q ≠ p) :
    (s.withdraw p res).pius[q] = ((s.withdrawOrder p).foldl (State.withdrawFrom p) s).pius[q] := by
  rw [State.withdraw, State.stripPort, get_set, if_neg (Ne.symm hq)]

/-- The port's PIU takes the Result record and asks for no line; its pin and the byte in transit stay. -/
theorem State.withdraw_piu_fields :
    (s.withdraw p res).pius[p].result = res ∧ (s.withdraw p res).pius[p].staging.req = .none ∧
    (s.withdraw p res).pius[p].wire = s.pius[p].wire ∧ (s.withdraw p res).pius[p].sel = s.pius[p].sel ∧
    (s.withdraw p res).pius[p].early = s.pius[p].early := by
  rw [State.withdraw_piu]
  exact ⟨rfl, rfl, State.withdrawChains_piu (·.wire) (fun _ _ => rfl) s p p,
    State.withdrawChains_piu (·.sel) (fun _ _ => rfl) s p p,
    State.withdrawChains_piu (·.early) (fun _ _ => rfl) s p p⟩

theorem State.withdraw_other_port {q : Port} (hq : q ≠ p) :
    (s.withdraw p res).pius[q].result = s.pius[q].result ∧ (s.withdraw p res).pius[q].link = s.pius[q].link ∧
    (s.withdraw p res).enables[q] = s.enables[q] := by
  have henables := State.withdraw_keeps State.enables p (fun _ _ => by simp) (s.withdrawOrder p) s
  rw [State.withdraw_piu_other hq]
  refine ⟨State.withdrawChains_piu (·.result) (fun _ _ => rfl) s p q,
    State.withdrawChains_piu (·.link) (fun _ _ => rfl) s p q, ?_⟩
  rw [State.withdraw, State.stripPort, get_set, if_neg (Ne.symm hq), henables]

theorem State.withdraw_link : (s.withdraw p res).pius[p].link = s.pius[p].link.withdraw := by
  rw [State.withdraw_piu]
  exact congrArg Link.withdraw (State.withdrawChains_piu (·.link) (fun _ _ => rfl) s p p)

/-- A stream that has not earned its outcome is over. -/
theorem State.withdraw_stream (h : ∀ st, s.pius[p].stream = some st → st.earned = none) :
    (s.withdraw p res).pius[p].stream = none := by
  have hearned := State.withdrawChains_piu (fun u => u.stream.map (·.earned)) Piu.revoke_earned s p p
  rw [State.withdraw_piu, Piu.withdraw, Option.filter_eq_none_iff]
  intro st hst
  rw [hst, Option.map_some, eq_comm, Option.map_eq_some_iff] at hearned
  obtain ⟨st', hst', he⟩ := hearned
  rw [← he, h st' hst']
  exact nofun

theorem Link.withdraw_body (c : Cmd) (ops : List Byte) (b : Body) :
    (Link.body c ops b).withdraw = .body c ops (bodyWithout b) := by
  cases b <;> rfl

theorem Link.withdraw_other {l : Link} (h : ∀ c ops b, l ≠ .body c ops b) : l.withdraw = l := by
  cases l with
  | body c ops b => exact absurd rfl (h c ops b)
  | _ => rfl

end Withdraw

/-! ### Port Reset (R145) -/

theorem execPortReset_rise {s : State} {p : Port} (h : Waits s p .portReset []) :
    exec (.portReset p .rise) s = .next ((s.deselect p).withdraw p portResetResult) :=
  actionBeat_rise h (by decide) _

end Sys2Proof.Machine

namespace Sys2Proof.Proofs
open Machine

/-- Settles O48: the chains' turns in the model's order and the port stripped, then each unit's part of them. -/
theorem portResetWithdraws : Obligations.PortResetWithdraws := by
  refine ⟨fun s p h => execPortReset_rise h, ?_⟩
  rintro s t p res rfl
  have hturns := s.withdraw_eq p res
  obtain ⟨hinq, hnotq, hedges, henables⟩ := State.withdraw_port (s := s) (p := p) (res := res)
  obtain ⟨hresult, hreq, hwire, hsel, hearly⟩ := State.withdraw_piu_fields (s := s) (p := p) (res := res)
  refine ⟨fun hnone => ?_, fun n hn hsole => ?_,
    ⟨_, s.withdrawOrder_nodup p, s.withdrawOrder_mem p, hturns⟩,
    fun n => ⟨fun ho => State.withdraw_vacates (touches_of_owner ho) (ChainRec.withdrawn_owned ho),
      fun d l k hl hp => ?_, State.withdraw_record_other⟩,
    hinq, hnotq, hedges, henables, fun _ => State.withdraw_claim_held, State.withdraw_claim_other, hresult, hreq,
    State.withdraw_stream, fun c ops b hl => ?_, fun hl => ?_, hwire, hsel, hearly,
    fun q => State.withdraw_other_port, State.withdraw_committed s p res, State.withdraw_divider s p res,
    State.withdraw_field State.store (fun _ _ => by simp) fun _ => rfl,
    State.withdraw_field State.ready (fun _ _ => by simp) fun _ => rfl,
    State.withdraw_field State.resetn (fun _ _ => by simp) fun _ => rfl,
    State.withdraw_field State.arbPos (fun _ _ => by simp) fun _ => rfl,
    State.withdraw_field State.clearEng (fun _ _ => by simp) fun _ => rfl,
    State.withdraw_field State.pending (fun _ _ => by simp) fun _ => rfl⟩
  · rw [hturns, State.withdrawOrder_nil hnone]
    rfl
  · rw [hturns, State.withdrawOrder_singleton hn hsole]
    rfl
  · have htouches : s.recs[n].life.touches p = true := hl ▸ touches_of_participant hp
    exact ⟨fun hpend hhold => State.withdraw_vacates htouches (ChainRec.withdrawn_last hl hpend hhold),
      State.withdraw_departs hl htouches⟩
  · rw [State.withdraw_link, hl, Link.withdraw_body]
  · rw [State.withdraw_link, Link.withdraw_other hl]

end Sys2Proof.Proofs
end

section
/-! PROOFS. The rows of a port's link, classed: the rows of the commands are one case, and the course of a command other
than Read Data's dummy byte is `linkBeat`'s. -/

namespace Sys2Proof.Machine

/-! ### The rows of a link -/

/-- The rows on port p's link: its own, the streams' bytes and close, and those of the commands. -/
inductive LinkRow (p : Port) : Instr → Prop where
  | edge (e : LinkEdge) : LinkRow p (.selectFall ⟨p, e⟩)
  | framing (bits : Fin 8) : LinkRow p (.framing p bits)
  | unknown (b : UnknownBeat) : LinkRow p (.unknownCommand p b)
  | selectRise : LinkRow p (.selectRise p)
  | appendByte (x : Byte) : LinkRow p (.appendDataByte p x)
  | rewriteByte (x : Byte) : LinkRow p (.rewriteDataByte p x)
  | readByte : LinkRow p (.readDataByte p)
  | close (b : CloseBeat) : LinkRow p (.streamClose p b)
  | command (c : Cmd) (b : Beat) : LinkRow p (row c p b)

theorem linkRow_of_portOf {i : Instr} {p : Port} (hi : portOf i = some p) : LinkRow p i := by
  cases i with
  | selectFall w => cases hi; exact .edge _
  | framing q bits => cases hi; exact .framing bits
  | unknownCommand q b => cases hi; exact .unknown b
  | selectRise q => cases hi; exact .selectRise
  | appendDataByte q x => cases hi; exact .appendByte x
  | rewriteDataByte q x => cases hi; exact .rewriteByte x
  | readDataByte q => cases hi; exact .readByte
  | streamClose q b => cases hi; exact .close b
  | readResult q b => cases hi; exact .command .readResult b
  | readAttention q b => cases hi; exact .command .readAttention b
  | readQueueStatus q b => cases hi; exact .command .readQueueStatus b
  | readFreeStatus q b => cases hi; exact .command .readFreeStatus b
  | readChainInfo q b => cases hi; exact .command .readChainInfo b
  | readSettings q b => cases hi; exact .command .readSettings b
  | identify q b => cases hi; exact .command .identify b
  | openChain q b => cases hi; exact .command .openChain b
  | appendData q b => cases hi; exact .command .appendData b
  | rewriteData q b => cases hi; exact .command .rewriteData b
  | readData q b => cases hi; exact .command .readData b
  | extendChain q b => cases hi; exact .command .extendChain b
  | sealChain q b => cases hi; exact .command .sealChain b
  | unsealChain q b => cases hi; exact .command .unsealChain b
  | discardChain q b => cases hi; exact .command .discardChain b
  | renewLease q b => cases hi; exact .command .renewLease b
  | handChain q b => cases hi; exact .command .handChain b
  | takeInbound q b => cases hi; exact .command .takeInbound b
  | releaseChain q b => cases hi; exact .command .releaseChain b
  | adoptChain q b => cases hi; exact .command .adoptChain b
  | recallChain q b => cases hi; exact .command .recallChain b
  | takeNotice q b => cases hi; exact .command .takeNotice b
  | setEnables q b => cases hi; exact .command .setEnables b
  | acknowledgeAttention q b => cases hi; exact .command .acknowledgeAttention b
  | claimSettings q b => cases hi; exact .command .claimSettings b
  | writeSetting q b => cases hi; exact .command .writeSetting b
  | commitSettings q b => cases hi; exact .command .commitSettings b
  | abandonSettings q b => cases hi; exact .command .abandonSettings b
  | portReset q b => cases hi; exact .command .portReset b
  | _ => cases hi

theorem wellFormed_row (c : Cmd) (p : Port) (b : Beat) : (row c p b).wellFormed = beatOk c b := by
  cases c <;> rfl

theorem isByte_row (c : Cmd) (p : Port) (b : Beat) : isByte (row c p b) = decide (b ≠ .rise) := by
  cases c <;> rfl

/-! ### The course of a command -/

/-- Every command but Read Data runs the shared course, its streams included. -/
theorem commandBeat_course {c : Cmd} (hc : c ≠ .readData) (p : Port) :
    ∃ enter close, ∀ b s, commandBeat c p b s = linkBeat c p b enter close s := by
  cases c
  case readData => exact absurd rfl hc
  all_goals exact ⟨_, _, fun _ _ => rfl⟩

/-- Read Data runs the shared course but for a byte in its data phase. -/
theorem execReadData_course {p : Port} {b : Beat} {s : State}
    (h : b = .pass → ∀ ops, s.pius[p].link ≠ .body .readData ops .streaming) :
    execReadData p b s =
      linkBeat .readData p b (fun ops t => t.takeStream .readData .read p ops) (fun _ _ t => t) s := by
  unfold execReadData
  split
  · next hl _ => exact absurd hl (h rfl _)
  · rfl

/-- Outside a Read Data's data phase a command's beat is a beat of the shared course. -/
theorem commandBeat_linkBeat (c : Cmd) {p : Port} {b : Beat} {s : State}
    (h : b = .pass → ∀ ops, s.pius[p].link ≠ .body .readData ops .streaming) :
    ∃ enter close, commandBeat c p b s = linkBeat c p b enter close s := by
  by_cases hc : c = .readData
  · subst hc
    exact ⟨_, _, execReadData_course h⟩
  · obtain ⟨enter, close, hcourse⟩ := commandBeat_course hc p
    exact ⟨enter, close, hcourse b s⟩

/-- An action's course (R156). -/
theorem commandBeat_action {c : Cmd} (hc : c.cls = .action) (p : Port) :
    ∃ act, ∀ b s, commandBeat c p b s = actionBeat c p b act s := by
  cases c
  case readResult | readAttention | readQueueStatus | readFreeStatus | readChainInfo | readSettings | identify |
    appendData | rewriteData | readData | takeInbound | takeNotice => cases hc
  all_goals exact ⟨_, fun _ _ => rfl⟩

/-- A query's course (R156). -/
theorem commandBeat_query {c : Cmd} (hc : c.cls = .query) (p : Port) :
    ∃ always copy, ∀ b s, commandBeat c p b s = queryBeat c p b always copy s := by
  cases c
  case readResult | readAttention | readQueueStatus | readFreeStatus | readChainInfo | readSettings | identify =>
    exact ⟨_, _, fun _ _ => rfl⟩
  all_goals cases hc

theorem beatOk_pass {c : Cmd} (hc : c.cls ≠ .stream) : beatOk c .pass = true := by
  cases c
  case appendData | rewriteData => exact absurd rfl hc
  all_goals rfl

/-- A further byte of a command in BODY moves its body on. -/
theorem exec_pass {s : State} {p : Port} {c : Cmd} {ops : List Byte} {b : Body} (h : InBody s p c ops b)
    (hb : AtByte s p) (hc : c.cls ≠ .stream) : exec (row c p .pass) s = .next (s.setLink p (.body c ops b.pass)) := by
  obtain ⟨enter, close, hcourse⟩ := commandBeat_eq_linkBeat hc p
  rw [exec_row, hcourse, linkBeat_pass h hb (beatOk_pass hc)]

/-- A link error is one update of the PIU and of the port's requests. -/
theorem State.linkError_eq (s : State) (p : Port) (command : Byte) (e : Ending) :
    s.linkError p command e =
      { s with
        pius := s.pius.set p (s.pius[p].answered command e)
        edges := s.edges.set p (if s.isEnabled p then s.edges[p] ||| 0x10 else s.edges[p]) } := by
  unfold State.linkError
  rw [State.deselect_record]
  rfl

end Sys2Proof.Machine
end

section
/-! PROOFS. What no event of a port's link touches: the queue of commands, and the copies that the other ports are
outputting (R150, R156). -/

namespace Sys2Proof.Machine

/-! ### What is spared -/

/-- The copy that a selected port is outputting, with its command and its operands. -/
def Piu.copying (u : Piu) : Option (Cmd × List Byte × List Byte × List Byte) :=
  match u.sel, u.link with
  | true, .body c ops (.copy bytes again) => some (c, ops, bytes, again)
  | _, _ => none

theorem Piu.copying_iff {u : Piu} {c : Cmd} {ops bytes again : List Byte} :
    u.copying = some (c, ops, bytes, again) ↔ u.sel = true ∧ u.link = .body c ops (.copy bytes again) := by
  unfold Piu.copying
  split
  · next hsel hlink => simp [hsel, hlink]
  · next hnot => simpa using hnot c ops bytes again

theorem Piu.copying_congr {u v : Piu} (hsel : u.sel = v.sel) (hlink : u.link = v.link) : u.copying = v.copying := by
  unfold Piu.copying
  rw [hsel, hlink]

/-- A withdrawal ends no copy, and makes none (R150). -/
theorem Piu.copying_withdraw (u : Piu) (res : ResultRec) : (u.withdraw res).copying = u.copying := by
  obtain ⟨sel, link, wire, early, result, staging, stream⟩ := u
  rcases link with _ | _ | _ | ⟨c, ops, b⟩ | _
  case body => cases sel <;> cases b <;> rfl
  all_goals rfl

/-- The queue of commands, and the copies that the ports other than q are outputting. -/
def State.spared (q : Option Port) (s : State) :
    List Instr × (Port → Option (Cmd × List Byte × List Byte × List Byte)) :=
  (s.pending, fun p => if q = some p then none else s.pius[p].copying)

theorem spared_pending {q : Option Port} {s t : State} (h : t.spared q = s.spared q) : t.pending = s.pending :=
  congrArg Prod.fst h

theorem spared_copying {q : Option Port} {s t : State} {p : Port} (h : t.spared q = s.spared q) (hp : q ≠ some p) :
    t.pius[p].copying = s.pius[p].copying := by
  simpa only [State.spared, if_neg hp] using congrFun (congrArg Prod.snd h) p

section Spared
variable {q : Option Port} (s : State)

theorem spared_ext {s t : State} (hpending : t.pending = s.pending)
    (hpius : ∀ p : Port, q ≠ some p → t.pius[p].copying = s.pius[p].copying) : t.spared q = s.spared q := by
  refine Prod.ext hpending (funext fun p => ?_)
  simp only [State.spared]
  split
  · rfl
  · next hp => exact hpius p hp

theorem spared_frame {s t : State} (hpending : t.pending = s.pending) (hpius : t.pius = s.pius) :
    t.spared q = s.spared q :=
  spared_ext hpending fun p _ => by rw [hpius]

theorem State.setPiu_spared {p : Port} {u : Piu} (h : q = some p ∨ u.copying = s.pius[p].copying) :
    (s.setPiu p u).spared q = s.spared q := by
  refine spared_ext rfl fun p' hp' => ?_
  rw [State.setPiu_pius, get_set]
  split
  · next hp =>
    subst hp
    exact h.resolve_left hp'
  · rfl

/-! ### The operations on chains and queues -/

theorem State.vacate_spared (n : ChainNo) : (s.vacate n).spared q = s.spared q :=
  spared_ext (by simp) fun p _ => by
    rw [State.vacate_piu]
    rfl

theorem State.grow_lengthen_spared {t : State} {k : Nat} {bs : List Nat} (h : s.allocate k = some (bs, t)) (n : ChainNo)
    (p : Port) (len : Nat) : ((t.grow n p bs).lengthen n len).spared q = s.spared q := by
  obtain ⟨-, -, rfl⟩ := allocate_some h
  rfl

theorem State.depart_spared (p : Port) (how : Departure) (n : ChainNo) : (s.depart p how n).spared q = s.spared q := by
  unfold State.depart
  split
  · dsimp only
    split
    · exact (State.vacate_spared _ n).trans (spared_frame (by simp) (by simp))
    · exact spared_frame rfl rfl
  all_goals rfl

theorem State.expire_spared (n : ChainNo) : (s.expire n).spared q = s.spared q :=
  (State.vacate_spared _ n).trans (spared_frame (by simp) (by simp))

theorem State.complete_spared (run : SealRun) : (s.complete run).spared q = s.spared q := by
  unfold State.complete
  dsimp only
  split
  · split <;> rfl
  all_goals rfl

theorem State.takeLive_spared (p : Port) (ref : ChainRef) : (s.takeLive p ref).spared q = s.spared q := by
  unfold State.takeLive
  dsimp only
  split
  · split <;> rfl
  all_goals rfl

theorem State.withdraw_spared (p : Port) (res : ResultRec) : (s.withdraw p res).spared q = s.spared q := by
  refine State.withdraw_field (State.spared q) (fun s n => ?_) fun u => ?_
  · unfold State.withdrawFrom
    split
    · exact State.vacate_spared s n
    · exact State.depart_spared s p _ n
  · exact (State.setPiu_spared u (u := u.pius[p].withdraw res) (.inr (Piu.copying_withdraw _ _)))

theorem State.commit_spared (p : Port) (staged : Settings) : (s.commit p staged).spared q = s.spared q := by
  have hwithdrawn : ((s.applySettings staged).withdrawAll (s.disables staged)).spared q = s.spared q :=
    State.withdrawAll_keeps (State.spared q) State.withdraw_spared _ _
  refine Eq.trans (spared_frame ?_ ?_) hwithdrawn <;> simp [State.commit, State.endClaim]

/-! ### The actions -/

theorem openChain_spared (p : Port) (tag : Word) : (openChain p tag s).1.spared q = s.spared q := by
  unfold openChain
  split
  · rfl
  split <;> rfl

theorem extendChain_spared (p : Port) (n : ChainNo) (count : Word) :
    (extendChain p n count s).1.spared q = s.spared q := by
  obtain e | ⟨len, -, -, ⟨-, e⟩ | ⟨bs, t, halloc, -, e⟩⟩ := extendChain_cases p n count s <;> rw [e]
  · rfl
  · exact State.grow_lengthen_spared s halloc n p len

theorem unseal_spared (n : ChainNo) (p : Port) (l : Label) : (s.unseal n p l).spared q = s.spared q :=
  spared_frame (by simp [State.unseal]) (by simp [State.unseal])

theorem handChain_spared (p : Port) (n : ChainNo) (mask : Byte) : (handChain p n mask s).1.spared q = s.spared q := by
  unfold handChain
  dsimp only
  split
  · rfl
  split
  · rfl
  split <;> rfl

theorem takeInbound_spared (p : Port) (body : Body) : (takeInbound p body s).1.spared q = s.spared q := by
  unfold takeInbound
  split
  · split
    · rfl
    split
    · unfold takeHead
      dsimp only
      split
      · rfl
      · exact (State.takeLive_spared _ _ _).trans rfl
    · rfl
  all_goals rfl

theorem takeNotice_spared (p : Port) (body : Body) : (takeNotice p body s).1.spared q = s.spared q := by
  unfold takeNotice
  split
  · split <;> rfl
  all_goals rfl

theorem releaseChain_spared (p : Port) (n : ChainNo) (x : Byte) : (releaseChain p n x s).1.spared q = s.spared q := by
  unfold releaseChain
  split
  · rfl
  · dsimp only [State.releaseBy]
    split
    · exact State.depart_spared s p _ n
    · exact Eq.trans rfl (State.depart_spared s p _ n)
  · rfl

theorem State.adopt_spared (n : ChainNo) (p : Port) (d : Delivery) (l : Label) (k : Word) :
    (s.adopt n p d l k).spared q = s.spared q :=
  spared_frame (by simp [State.adopt]) (by simp [State.adopt])

theorem adoptChain_spared (p : Port) (n : ChainNo) : (adoptChain p n s).1.spared q = s.spared q := by
  unfold adoptChain
  split
  · split
    · rfl
    split
    · rfl
    split
    · rfl
    split
    · rfl
    · exact State.adopt_spared s n p _ _ _
  all_goals rfl

theorem recallChain_spared (n : ChainNo) : (recallChain n s).1.spared q = s.spared q := by
  unfold recallChain
  split
  · split <;> rfl
  all_goals rfl

theorem setEnables_spared (p : Port) (m : Byte) : (setEnables p m s).1.spared q = s.spared q := by
  unfold setEnables
  split <;> rfl

theorem acknowledgeAttention_spared (p : Port) (m : Byte) : (acknowledgeAttention p m s).1.spared q = s.spared q := by
  unfold acknowledgeAttention
  split <;> rfl

theorem claimSettings_spared (p : Port) : (claimSettings p s).1.spared q = s.spared q := by
  unfold claimSettings
  split
  · rfl
  split <;> rfl

theorem writeSetting_spared (p : Port) (id : Byte) (v : Word) : (writeSetting p id v s).1.spared q = s.spared q := by
  unfold writeSetting
  split
  · rfl
  · rfl
  split <;> rfl

theorem abandonSettings_spared (p : Port) : (abandonSettings p s).1.spared q = s.spared q := by
  unfold abandonSettings
  split <;> rfl

end Spared

end Sys2Proof.Machine
end

section
/-! PROOFS. The queue of commands and the copies of other ports across every row (R150, R156). -/

namespace Sys2Proof.Machine

/-! ### The course of a command writes its own PIU -/

/-- What a beat of the shared course can do: it writes the port's PIU, or the command enters BODY, or it is closed. -/
theorem linkBeat_next {c : Cmd} {p : Port} {b : Beat} {enter : List Byte → State → State}
    {close : List Byte → Body → State → State} {s t : State} (h : linkBeat c p b enter close s = .next t) :
    (∃ u, t = s.setPiu p u) ∨ (∃ ops, t = enter ops s) ∨ ∃ ops body, t = close ops body (s.deselect p) := by
  have same : ∃ u, s = s.setPiu p u := ⟨_, (s.setPiu_self p).symm⟩
  have ignored {b : Beat} (h : ignoredBeat p b s = .next t) : ∃ u, t = s.setPiu p u := by
    cases b <;> cases h
    case rise => exact ⟨_, rfl⟩
    all_goals exact same
  unfold linkBeat at h
  split at h
  · cases h
  split at h
  · cases h; exact .inl same
  split at h
  · cases h
  split at h
  · exact .inl (ignored h)
  · split at h
    · exact .inl (ignored h)
    · cases h
  · cases b <;> dsimp only at h
    case code =>
      unfold codeWhole at h
      split at h
      · cases h; exact .inl ⟨_, rfl⟩
      split at h
      · cases h
      split at h
      · cases h; exact .inr (.inl ⟨_, rfl⟩)
      · cases h; exact .inl ⟨_, rfl⟩
    all_goals cases h
  · cases b <;> dsimp only at h
    case operand =>
      split at h
      · unfold operandWhole at h
        split at h
        · cases h; exact .inl ⟨_, rfl⟩
        · cases h; exact .inr (.inl ⟨_, rfl⟩)
      · cases h
    all_goals cases h
  · next body _ =>
    cases b <;> dsimp only at h
    case pass =>
      split at h
      · cases h; exact .inl ⟨_, rfl⟩
      · cases h
    case rise =>
      split at h
      · cases h
        cases body
        case ended => exact .inl ⟨_, rfl⟩
        case refused e => exact .inl ⟨_, by rw [bodyRise, State.deselect_record]; rfl⟩
        all_goals exact .inr (.inr ⟨_, _, rfl⟩)
      · cases h
    all_goals cases h

/-- What port p's link spares: the queue and the copies of the other ports stay. -/
def Spares (p : Port) (s : State) : Answer → Prop := Leaves fun t => t.spared (some p) = s.spared (some p)

section Rows
variable {p : Port} {s : State}

theorem spares_next {t : State} : Spares p s (.next t) ↔ t.spared (some p) = s.spared (some p) := leaves_next _ t

theorem spares_same : Spares p s (.next s) := spares_next.mpr rfl

theorem spares_fault (f : Fault) : Spares p s (.fault f) := leaves_fault _ f

theorem spares_refused (r : Refusal) : Spares p s (.refused r) := leaves_refused _ r

/-- The port's own PIU is not spared. -/
theorem State.setPiu_own (s : State) (p : Port) (u : Piu) : (s.setPiu p u).spared (some p) = s.spared (some p) :=
  s.setPiu_spared (.inl rfl)

theorem linkBeat_spares {c : Cmd} {b : Beat} {enter : List Byte → State → State}
    {close : List Byte → Body → State → State} (henter : ∀ ops, (enter ops s).spared (some p) = s.spared (some p))
    (hclose : ∀ ops body t, (close ops body t).spared (some p) = t.spared (some p)) :
    Spares p s (linkBeat c p b enter close s) := by
  intro t ht
  obtain ⟨u, rfl⟩ | ⟨ops, rfl⟩ | ⟨ops, body, rfl⟩ := linkBeat_next ht
  · exact s.setPiu_own p u
  · exact henter ops
  · exact (hclose ops body _).trans (s.setPiu_own p _)

theorem queryBeat_spares (c : Cmd) (b : Beat) (always : Bool) (copy : List Byte → State → List Byte × List Byte) :
    Spares p s (queryBeat c p b always copy s) := by
  refine linkBeat_spares (fun ops => ?_) fun _ _ _ => rfl
  split <;> exact s.setPiu_own p _

theorem actionBeat_spares {c : Cmd} {b : Beat} {act : List Byte → State → State}
    (hact : ∀ ops t, (act ops t).spared (some p) = t.spared (some p)) : Spares p s (actionBeat c p b act s) := by
  refine linkBeat_spares (fun _ => s.setPiu_own p _) fun ops _ t => ?_
  split
  · exact hact ops t
  · exact t.setPiu_own p _

theorem recordedBeat_spares {c : Cmd} {b : Beat} {act : List Byte → State → State × Ending}
    (hact : ∀ ops t, (act ops t).1.spared (some p) = t.spared (some p)) : Spares p s (recordedBeat c p b act s) :=
  actionBeat_spares fun ops t => (State.setPiu_own _ p _).trans (hact ops t)

theorem chainBeat_spares {c : Cmd} {b : Beat} {act : ChainNo → List Byte → State → State × Ending}
    (hact : ∀ n ops t, (act n ops t).1.spared (some p) = t.spared (some p)) : Spares p s (chainBeat c p b act s) := by
  refine recordedBeat_spares fun ops t => ?_
  split
  · rfl
  · exact hact _ ops t

theorem takeBeat_spares {c : Cmd} {b : Beat} {fixed : State → Body} {decide : Body → State → State × Ending}
    (hdecide : ∀ body t, (decide body t).1.spared (some p) = t.spared (some p)) :
    Spares p s (takeBeat c p b fixed decide s) := by
  refine linkBeat_spares (fun ops => ?_) fun _ body t => (State.setPiu_own _ p _).trans (hdecide body t)
  split <;> exact s.setPiu_own p _

theorem commitSettings_spared (s : State) (p : Port) : (commitSettings p s).spared (some p) = s.spared (some p) := by
  unfold commitSettings
  split
  · exact s.setPiu_own p _
  split
  · exact s.setPiu_own p _
  · unfold State.recordCommit
    split
    · exact (State.setPiu_own _ p _).trans (s.commit_spared p _)
    · exact s.commit_spared p _

/-! ### Streams -/

theorem State.takeStream_spared (s : State) (c : Cmd) (kind : StreamKind) (p : Port) (ops : List Byte) :
    (s.takeStream c kind p ops).spared (some p) = s.spared (some p) := by
  unfold State.takeStream
  generalize (if kind = .append then 0 else (opWord ops 2).toNat) = offset
  dsimp only
  split
  · exact s.setPiu_own p _
  split
  · exact s.setPiu_own p _
  split
  · exact s.setPiu_own p _
  · exact State.setPiu_own _ p _

theorem State.appendByte_spared (s : State) (p : Port) (st : Stream) (x : Byte) :
    (s.appendByte p st x).spared (some p) = s.spared (some p) := by
  obtain ⟨why, e⟩ | ⟨-, e⟩ | ⟨-, -, bs, t, halloc, e⟩ := appendByte_cases p st x s <;> rw [e]
  · exact s.setPiu_own p _
  · exact State.setPiu_own _ p _
  · obtain ⟨-, -, rfl⟩ := allocate_some halloc
    exact State.setPiu_own _ p _

theorem State.rewriteByte_spared (s : State) (p : Port) (st : Stream) (x : Byte) :
    (s.rewriteByte p st x).spared (some p) = s.spared (some p) := by
  unfold State.rewriteByte
  dsimp only
  split <;> exact s.setPiu_own p _

theorem State.finishStream_spared (s : State) (p : Port) (st : Stream) :
    (s.finishStream p st).spared (some p) = s.spared (some p) :=
  (State.setPiu_own _ p _).trans (s.setPiu_own p _)

theorem State.closeStream_spared (s : State) (p : Port) (st : Stream) :
    (s.closeStream p st).spared (some p) = s.spared (some p) := by
  unfold State.closeStream
  split
  · exact (State.setPiu_own _ p _).trans (s.setPiu_own p _)
  · exact (State.finishStream_spared _ p st).trans (s.setPiu_own p _)

/-- The end of the byte and what follows it write the port's PIU. -/
theorem readNext_spares (st : Stream) : Spares p s ((s.byteEnd p).readNext p st) := by
  unfold State.readNext
  dsimp only
  split
  · exact spares_fault _
  · exact spares_next.mpr ((State.setPiu_own _ p _).trans (s.setPiu_own p _))

theorem dataByteIn_spares {c : Cmd} {take : Stream → State → State}
    (htake : ∀ st t, (take st t).spared (some p) = t.spared (some p)) : Spares p s (dataByteIn c p take s) := by
  have hend : (s.byteEnd p).spared (some p) = s.spared (some p) := s.setPiu_own p _
  have htaken (st : Stream) : (take st (s.byteEnd p)).spared (some p) = s.spared (some p) := (htake st _).trans hend
  unfold dataByteIn
  repeat' split
  all_goals simp only [spares_next, spares_fault, hend, htaken]

theorem execReadData_spares (b : Beat) : Spares p s (execReadData p b s) := by
  unfold execReadData
  split
  · split
    · exact spares_same
    split
    · exact spares_fault _
    · exact readNext_spares _
  · exact linkBeat_spares (fun ops => s.takeStream_spared _ _ p ops) fun _ _ _ => rfl

theorem execReadDataByte_spares : Spares p s (execReadDataByte p s) := by
  have hend : (s.byteEnd p).spared (some p) = s.spared (some p) := s.setPiu_own p _
  unfold execReadDataByte
  repeat' split
  all_goals simp only [spares_next, spares_fault, hend, readNext_spares]

theorem execStreamClose_spares (b : CloseBeat) : Spares p s (execStreamClose p b s) := by
  have hdeselected : (s.deselect p).spared (some p) = s.spared (some p) := s.setPiu_own p _
  have hrecorded (c : Byte) (e : Ending) : ((s.deselect p).record p c e).spared (some p) = s.spared (some p) :=
    (State.setPiu_own _ p _).trans hdeselected
  cases b with
  | rise =>
    dsimp only [execStreamClose]
    unfold streamRise
    repeat' split
    all_goals simp only [spares_next, spares_fault, hdeselected, hrecorded, State.closeStream_spared]
  | record =>
    dsimp only [execStreamClose]
    unfold streamRecord
    repeat' split
    all_goals simp only [spares_next, spares_fault, State.finishStream_spared]

/-! ### The rows of a link -/

theorem commandBeat_spares (c : Cmd) (b : Beat) : Spares p s (commandBeat c p b s) := by
  cases c with
  | appendData => exact linkBeat_spares (fun ops => s.takeStream_spared _ _ p ops) fun _ _ _ => rfl
  | rewriteData => exact linkBeat_spares (fun ops => s.takeStream_spared _ _ p ops) fun _ _ _ => rfl
  | readData => exact execReadData_spares b
  | openChain => exact recordedBeat_spares fun _ t => openChain_spared t p _
  | extendChain => exact chainBeat_spares fun n _ t => extendChain_spared t p n _
  | discardChain => exact chainBeat_spares fun n _ t => t.vacate_spared n
  | renewLease => exact chainBeat_spares fun _ _ _ => rfl
  | sealChain => exact chainBeat_spares fun _ _ _ => rfl
  | unsealChain => exact chainBeat_spares fun n _ t => unseal_spared t n p _
  | handChain => exact chainBeat_spares fun n _ t => handChain_spared t p n _
  | takeInbound => exact takeBeat_spares fun body t => takeInbound_spared t p body
  | releaseChain => exact chainBeat_spares fun n _ t => releaseChain_spared t p n _
  | adoptChain => exact chainBeat_spares fun n _ t => adoptChain_spared t p n
  | recallChain => exact chainBeat_spares fun n _ t => recallChain_spared t n
  | takeNotice => exact takeBeat_spares fun body t => takeNotice_spared t p body
  | setEnables => exact recordedBeat_spares fun _ t => setEnables_spared t p _
  | acknowledgeAttention => exact recordedBeat_spares fun _ t => acknowledgeAttention_spared t p _
  | claimSettings => exact recordedBeat_spares fun _ t => claimSettings_spared t p
  | writeSetting => exact recordedBeat_spares fun _ t => writeSetting_spared t p _ _
  | commitSettings => exact actionBeat_spares fun _ t => commitSettings_spared t p
  | abandonSettings => exact recordedBeat_spares fun _ t => abandonSettings_spared t p
  | portReset => exact actionBeat_spares fun _ t => t.withdraw_spared p _
  | _ => exact queryBeat_spares _ b _ _

theorem State.linkError_spared (s : State) (p : Port) (c : Byte) (e : Ending) :
    (s.linkError p c e).spared (some p) = s.spared (some p) := by
  rw [State.linkError_eq]
  exact s.setPiu_own p (s.pius[p].answered c e)

theorem execSelectRise_spares : Spares p s (execSelectRise p s) := by
  have hdeselected : (s.deselect p).spared (some p) = s.spared (some p) := s.setPiu_own p _
  unfold execSelectRise
  repeat' split
  all_goals simp only [spares_next, spares_fault, hdeselected]

theorem execFraming_spares (bits : Fin 8) : Spares p s (execFraming p bits s) := by
  have hdeselected : (s.deselect p).spared (some p) = s.spared (some p) := s.setPiu_own p _
  unfold execFraming
  repeat' split
  all_goals simp only [spares_next, spares_fault, hdeselected, State.linkError_spared]

theorem execUnknownCommand_spares (b : UnknownBeat) : Spares p s (execUnknownCommand p b s) := by
  have hdeselected : (s.deselect p).spared (some p) = s.spared (some p) := s.setPiu_own p _
  have hend : (s.byteEnd p).spared (some p) = s.spared (some p) := s.setPiu_own p _
  have hlink (l : Link) : (s.setLink p l).spared (some p) = s.spared (some p) := s.setPiu_own p _
  unfold execUnknownCommand
  repeat' split
  all_goals simp only [spares_next, spares_fault, spares_refused, hdeselected, hend, hlink, State.linkError_spared]

theorem execAppendDataByte_spares (x : Byte) : Spares p s (execAppendDataByte p x s) :=
  dataByteIn_spares fun st t => t.appendByte_spared p st x

theorem execRewriteDataByte_spares (x : Byte) : Spares p s (execRewriteDataByte p x s) :=
  dataByteIn_spares fun st t => t.rewriteByte_spared p st x

/-- The byte that the eighth bit makes whole is an event of its row. -/
theorem byteWhole_spares (x : Byte) : Spares p s (byteWhole p x s) := by
  unfold byteWhole
  split
  · exact spares_same
  · split
    · exact commandBeat_spares _ _
    · exact execUnknownCommand_spares _
  · exact commandBeat_spares _ _
  · unfold bodyByte
    split
    · exact execAppendDataByte_spares x
    split
    · exact execRewriteDataByte_spares x
    split
    · exact execReadDataByte_spares
    · exact commandBeat_spares _ _
  · exact execUnknownCommand_spares _

theorem holdPnDO_spares {a : Answer} (level : Option Bool) (ha : Spares p s a) :
    Spares p s (Answer.holdPnDO p level a) := by
  cases a with
  | next t => exact spares_next.mpr ((t.setPiu_own p _).trans (spares_next.mp ha))
  | fault f => exact spares_fault f
  | refused r => exact spares_refused r

theorem execSelectFall_spares (e : LinkEdge) : Spares p s (execSelectFall ⟨p, e⟩ s) := by
  cases e with
  | select =>
    dsimp only [execSelectFall, selectFalls]
    split
    · exact spares_fault _
    · exact spares_next.mpr (s.setPiu_own p _)
  | rising b =>
    dsimp only [execSelectFall, clockRises]
    split
    · exact spares_same
    split
    · exact spares_next.mpr (s.setPiu_own p _)
    · refine holdPnDO_spares _ fun t ht => ?_
      exact (byteWhole_spares _ t ht).trans (s.setPiu_own p _)
  | falling =>
    dsimp only [execSelectFall, clockFalls]
    split
    · exact spares_same
    · exact spares_next.mpr (s.setPiu_own p _)

theorem exec_linkRow_spares {i : Instr} (hi : portOf i = some p) : Spares p s (exec i s) := by
  cases linkRow_of_portOf hi with
  | edge e => exact execSelectFall_spares e
  | framing bits => exact execFraming_spares bits
  | unknown b => exact execUnknownCommand_spares b
  | selectRise => exact execSelectRise_spares
  | appendByte x => exact execAppendDataByte_spares x
  | rewriteByte x => exact execRewriteDataByte_spares x
  | readByte => exact execReadDataByte_spares
  | close b => exact execStreamClose_spares b
  | command c b =>
    rw [exec_row]
    exact commandBeat_spares c b

end Rows

/-! ### The part's own rows -/

/-- What a row on no port's link spares: the queue and every copy. -/
def SparesAll (s : State) : Answer → Prop := Leaves fun t => t.spared none = s.spared none

theorem sparesAll_next {s t : State} : SparesAll s (.next t) ↔ t.spared none = s.spared none := leaves_next _ t

theorem sparesAll_fault {s : State} (f : Fault) : SparesAll s (.fault f) := leaves_fault _ f

/-- A row that writes neither the queue nor a PIU. -/
theorem sparesAll_frame {s t : State} (hpending : t.pending = s.pending) (hpius : t.pius = s.pius) :
    SparesAll s (.next t) :=
  sparesAll_next.mpr (spared_frame hpending hpius)

section Part
variable (s : State)

theorem execInitializationComplete_spares : SparesAll s (execInitializationComplete s) := by
  unfold execInitializationComplete
  split <;> exact sparesAll_frame rfl rfl

theorem execStagingLineWrite_spares (p : Port) : SparesAll s (execStagingLineWrite p s) := by
  unfold execStagingLineWrite
  split
  · exact sparesAll_frame rfl rfl
  split
  · exact sparesAll_fault _
  · exact sparesAll_next.mpr (State.setPiu_spared _ (.inr (Piu.copying_congr rfl rfl)))

theorem execStagingLineFill_spares (p : Port) : SparesAll s (execStagingLineFill p s) := by
  unfold execStagingLineFill
  split
  · exact sparesAll_frame rfl rfl
  split
  · exact sparesAll_fault _
  · exact sparesAll_next.mpr (State.setPiu_spared _ (.inr (Piu.copying_congr rfl rfl)))

theorem execSealLineRead_spares : SparesAll s (execSealLineRead s) := by
  unfold execSealLineRead
  split
  · split
    · exact sparesAll_frame rfl rfl
    split
    · exact sparesAll_fault _
    · exact sparesAll_frame rfl rfl
  · exact sparesAll_frame rfl rfl

theorem execSealCompletion_spares : SparesAll s (execSealCompletion s) := by
  unfold execSealCompletion
  split
  · next run _ =>
    split
    · exact sparesAll_next.mpr ((spared_frame rfl rfl).trans (s.complete_spared run))
    · exact sparesAll_frame rfl rfl
  · exact sparesAll_frame rfl rfl

theorem execTick_spares : SparesAll s (execTick s) := by
  unfold execTick
  split <;> exact sparesAll_frame rfl rfl

theorem execRefclkPeriod_spares : SparesAll s (execRefclkPeriod s) := by
  unfold execRefclkPeriod
  split
  · exact sparesAll_frame rfl rfl
  split <;> exact sparesAll_frame rfl rfl

theorem execChainLeaseExpiry_spares (n : ChainNo) : SparesAll s (execChainLeaseExpiry n s) := by
  unfold execChainLeaseExpiry
  split
  · split
    · exact sparesAll_next.mpr (s.expire_spared n)
    · exact sparesAll_frame rfl rfl
  all_goals exact sparesAll_frame rfl rfl

theorem execClaimLeaseExpiry_spares : SparesAll s (execClaimLeaseExpiry s) := by
  unfold execClaimLeaseExpiry
  split
  · unfold State.lapse
    split <;> exact sparesAll_frame rfl rfl
  all_goals exact sparesAll_frame rfl rfl

theorem execClearingStart_spares : SparesAll s (execClearingStart s) := by
  unfold execClearingStart
  split <;> exact sparesAll_frame rfl rfl

theorem execClearLineWrite_spares : SparesAll s (execClearLineWrite s) := by
  unfold execClearLineWrite
  split
  · split
    · exact sparesAll_fault _
    split
    · exact sparesAll_frame (by simp [State.fillLine]) (by simp [State.fillLine])
    · exact sparesAll_frame (by simp [State.completeClearing, State.fillLine])
        (by simp [State.completeClearing, State.fillLine])
  · exact sparesAll_frame rfl rfl

/-- A row on no port's link, a device reset aside, leaves the queue and every copy. -/
theorem exec_partRow_spares {i : Instr} (hi : portOf i = none) (hpower : i ≠ .powerOn)
    (hreset : i ≠ .resetnAssertion) : SparesAll s (exec i s) := by
  cases i with
  | powerOn => exact absurd rfl hpower
  | resetnAssertion => exact absurd rfl hreset
  | resetnRelease => exact sparesAll_frame rfl rfl
  | initializationComplete => exact execInitializationComplete_spares s
  | stagingLineWrite p => exact execStagingLineWrite_spares s p
  | stagingLineFill p => exact execStagingLineFill_spares s p
  | sealLineRead => exact execSealLineRead_spares s
  | sealCompletion => exact execSealCompletion_spares s
  | tick => exact execTick_spares s
  | refclkPeriod => exact execRefclkPeriod_spares s
  | chainLeaseExpiry n => exact execChainLeaseExpiry_spares s n
  | claimLeaseExpiry => exact execClaimLeaseExpiry_spares s
  | clearingStart => exact execClearingStart_spares s
  | clearLineWrite => exact execClearLineWrite_spares s
  | _ => cases hi

end Part

/-- No row changes the queue of commands: a device reset leaves it to the sender (log entry 1). -/
theorem exec_pending (i : Instr) {s t : State} (h : exec i s = .next t) : t.pending = s.pending := by
  cases hi : portOf i with
  | some p => exact spared_pending (exec_linkRow_spares hi t h)
  | none =>
    by_cases hpower : i = .powerOn
    · subst hpower
      cases h
      rfl
    by_cases hreset : i = .resetnAssertion
    · subst hreset
      cases h
      rfl
    exact spared_pending (exec_partRow_spares s hi hpower hreset t h)

/-- A row that is neither p's link's nor a device reset leaves the copy that p is outputting. -/
theorem exec_copying {i : Instr} {p : Port} (hi : portOf i ≠ some p) (hpower : i ≠ .powerOn)
    (hreset : i ≠ .resetnAssertion) {s t : State} (h : exec i s = .next t) : t.pius[p].copying = s.pius[p].copying := by
  cases hport : portOf i with
  | some q => exact spared_copying (exec_linkRow_spares hport t h) (hport ▸ hi)
  | none => exact spared_copying (exec_partRow_spares s hport hpower hreset t h) nofun

end Sys2Proof.Machine

namespace Sys2Proof.Proofs
open Machine

/-- Settles O1: a step reads the front of the queue, and an empty queue idles. -/
theorem stepTakesFrontCommand : Obligations.StepTakesFrontCommand := fun _ _ _ => ⟨rfl, rfl⟩

/-- Settles O2: the rows of the links and the part's own rows spare the queue, and a device reset leaves it. -/
theorem execKeepsQueue : Obligations.ExecKeepsQueue := fun c _ _ h => exec_pending c h

/-- Settles O15: the copy of a port is spared by the other ports' rows, their withdrawals of this port among them, and
by the part's own. -/
theorem copyUndisturbed : Obligations.CopyUndisturbed := by
  intro i s t p c ops bytes again hcopy hport hpower hreset h
  rw [InBody, ← Piu.copying_iff] at hcopy ⊢
  rw [exec_copying hport hpower hreset h, hcopy]

end Sys2Proof.Proofs
end

section
/-! PROOFS. The terms that are refused are the ill-formed ones (log entry 24). -/

namespace Sys2Proof.Machine

/-- The answer is no refusal. -/
def Accepted (a : Answer) : Prop := ∀ r, a ≠ .refused r

@[simp] theorem accepted_next (t : State) : Accepted (.next t) := by simp [Accepted]
@[simp] theorem accepted_fault (f : Fault) : Accepted (.fault f) := by simp [Accepted]

/-! ### Ill-formed terms -/

/-- Only a row on a port's link can be ill formed. -/
theorem wellFormed_of_portOf_none {i : Instr} (hi : portOf i = none) : i.wellFormed = true := by
  cases i
  case powerOn | resetnAssertion | resetnRelease | initializationComplete | stagingLineWrite | stagingLineFill |
    sealLineRead | sealCompletion | tick | chainLeaseExpiry | claimLeaseExpiry | clearingStart | clearLineWrite |
    refclkPeriod => rfl
  all_goals cases hi

theorem commandBeat_illFormed {c : Cmd} {b : Beat} (hb : beatOk c b = false) (p : Port) (s : State) :
    commandBeat c p b s = .refused .illFormed := by
  by_cases hc : c = .readData
  · subst hc
    refine (execReadData_course ?_).trans (linkBeat_refused.mpr ⟨hb, rfl⟩)
    rintro rfl
    cases hb
  · obtain ⟨enter, close, hcourse⟩ := commandBeat_course hc p
    exact (hcourse b s).trans (linkBeat_refused.mpr ⟨hb, rfl⟩)

theorem exec_illFormed {i : Instr} (hi : i.wellFormed = false) (s : State) : exec i s = .refused .illFormed := by
  cases hport : portOf i with
  | none => rw [wellFormed_of_portOf_none hport] at hi; cases hi
  | some p =>
    cases linkRow_of_portOf hport with
    | unknown b =>
      have hbad : unknownBeatOk b = false := hi
      simp only [exec, execUnknownCommand, hbad]
      rfl
    | command c b => rw [exec_row, commandBeat_illFormed (wellFormed_row c p b ▸ hi)]
    | _ => cases hi

/-! ### Well-formed terms -/

section Rows
variable {p : Port} {s : State}

theorem linkBeat_accepted {c : Cmd} {b : Beat} (hb : beatOk c b = true) (enter : List Byte → State → State)
    (close : List Byte → Body → State → State) : Accepted (linkBeat c p b enter close s) := fun r h => by
  rw [linkBeat_refused, hb] at h
  cases h.1

theorem readNext_accepted (t : State) (st : Stream) : Accepted (t.readNext p st) := by
  unfold State.readNext
  dsimp only
  split <;> simp

theorem commandBeat_accepted {c : Cmd} {b : Beat} (hb : beatOk c b = true) : Accepted (commandBeat c p b s) := by
  by_cases hc : c = .readData
  · subst hc
    dsimp only [commandBeat]
    unfold execReadData
    split
    · split
      · simp
      split
      · simp
      · exact readNext_accepted _ _
    · exact linkBeat_accepted hb _ _
  · obtain ⟨enter, close, hcourse⟩ := commandBeat_course hc p
    exact hcourse b s ▸ linkBeat_accepted hb enter close

theorem dataByteIn_accepted (c : Cmd) (take : Stream → State → State) : Accepted (dataByteIn c p take s) := by
  unfold dataByteIn
  repeat' split
  all_goals simp

theorem execReadDataByte_accepted : Accepted (execReadDataByte p s) := by
  unfold execReadDataByte
  repeat' split
  all_goals simp [readNext_accepted]

theorem execStreamClose_accepted (b : CloseBeat) : Accepted (execStreamClose p b s) := by
  cases b with
  | rise =>
    dsimp only [execStreamClose]
    unfold streamRise
    repeat' split
    all_goals simp
  | record =>
    dsimp only [execStreamClose]
    unfold streamRecord
    repeat' split
    all_goals simp

theorem execSelectRise_accepted : Accepted (execSelectRise p s) := by
  unfold execSelectRise
  repeat' split
  all_goals simp

theorem execFraming_accepted (bits : Fin 8) : Accepted (execFraming p bits s) := by
  unfold execFraming
  repeat' split
  all_goals simp

theorem execUnknownCommand_accepted {b : UnknownBeat} (hb : unknownBeatOk b = true) :
    Accepted (execUnknownCommand p b s) := by
  unfold execUnknownCommand
  rw [if_neg (by simp [hb])]
  repeat' split
  all_goals simp

theorem bodyByte_accepted (c : Cmd) (x : Byte) : Accepted (bodyByte c p x s) := by
  unfold bodyByte
  split
  · exact dataByteIn_accepted _ _
  split
  · exact dataByteIn_accepted _ _
  split
  · exact execReadDataByte_accepted
  · next happend hrewrite _ => exact commandBeat_accepted (by simp [beatOk, happend, hrewrite])

/-- A byte that becomes whole is a well-formed event of its row: in OPERAND state its command still needs it. -/
theorem byteWhole_accepted (h : s.pius[p].link.Needs) (x : Byte) : Accepted (byteWhole p x s) := by
  unfold byteWhole
  split
  · simp
  · split
    · exact commandBeat_accepted rfl
    · next hcode => exact execUnknownCommand_accepted (by simp [unknownBeatOk, hcode])
  · next c ops hlink =>
    have hneeds := h c ops hlink
    exact commandBeat_accepted (decide_eq_true (by omega))
  · exact bodyByte_accepted _ x
  · exact execUnknownCommand_accepted rfl

theorem execSelectFall_accepted (h : s.pius[p].link.Needs) (e : LinkEdge) : Accepted (execSelectFall ⟨p, e⟩ s) := by
  cases e with
  | select =>
    dsimp only [execSelectFall, selectFalls]
    split <;> simp
  | rising b =>
    have hbyte : Accepted (byteWhole p (byteOf (s.pius[p].wire.bits ++ [b])) (s.byteEnd p)) :=
      byteWhole_accepted (by rwa [State.byteEnd_piu]) _
    dsimp only [execSelectFall, clockRises]
    split
    · simp
    split
    · simp
    · cases hanswer : byteWhole p (byteOf (s.pius[p].wire.bits ++ [b])) (s.byteEnd p) with
      | next t => exact accepted_next _
      | fault f => exact accepted_fault f
      | refused r => exact absurd hanswer (hbyte r)
  | falling => exact accepted_next _

theorem exec_linkRow_accepted {i : Instr} (hi : portOf i = some p) (hwf : i.wellFormed = true)
    (h : s.pius[p].link.Needs) : Accepted (exec i s) := by
  cases linkRow_of_portOf hi with
  | edge e => exact execSelectFall_accepted h e
  | framing bits => exact execFraming_accepted bits
  | unknown b => exact execUnknownCommand_accepted hwf
  | selectRise => exact execSelectRise_accepted
  | appendByte x => exact dataByteIn_accepted _ _
  | rewriteByte x => exact dataByteIn_accepted _ _
  | readByte => exact execReadDataByte_accepted
  | close b => exact execStreamClose_accepted b
  | command c b =>
    rw [exec_row]
    exact commandBeat_accepted (wellFormed_row c p b ▸ hwf)

end Rows

theorem exec_partRow_accepted {i : Instr} (hi : portOf i = none) (s : State) : Accepted (exec i s) := by
  cases i
  case powerOn | resetnAssertion | resetnRelease => exact accepted_next _
  case initializationComplete | stagingLineWrite | stagingLineFill | sealLineRead | sealCompletion | tick |
    chainLeaseExpiry | claimLeaseExpiry | clearingStart | clearLineWrite | refclkPeriod =>
    dsimp only [exec, execInitializationComplete, execStagingLineWrite, execStagingLineFill, execSealLineRead,
      execSealCompletion, execTick, execChainLeaseExpiry, execClaimLeaseExpiry, execClearingStart, execClearLineWrite,
      execRefclkPeriod]
    repeat' split
    all_goals simp
  all_goals cases hi

end Sys2Proof.Machine

namespace Sys2Proof.Proofs
open Machine

/-- Settles O3: the shared course refuses the ill-formed beats alone, and no other row refuses. -/
theorem refusedIffIllFormed : Obligations.RefusedIffIllFormed := by
  refine fun c s => ⟨fun hill => exec_illFormed hill s, fun hneeds hwf => ?_⟩
  cases hport : portOf c with
  | some p => exact exec_linkRow_accepted hport hwf (hneeds p)
  | none => exact exec_partRow_accepted hport s

end Sys2Proof.Proofs
end

section
/-! PROOFS. The edges of a link (R154): PnSEL high, select rise, the bits of a byte and the level on PnDO. -/

namespace Sys2Proof.Machine

section Edges
variable {s : State} {p : Port}

/-! ### PnDO (R154) -/

theorem pnDO_deselected (h : s.pius[p].sel = false) : s.pnDO p = none ∧ s.pnDOLevel p = none := by
  simp [-Fin.getElem_fin, State.pnDO, State.pnDOLevel, h]

/-- PnDO is high-impedance until the command byte is whole. -/
theorem pnDO_waiting (h : s.pius[p].link = .deselected ∨ s.pius[p].link = .command) : s.pnDO p = none := by
  unfold State.pnDO
  split
  · rfl
  · obtain h | h := h <;> rw [h]

theorem pnDOLevel_left {level : Option Bool} (hsel : s.pius[p].sel = true) (hout : s.pius[p].wire.out = some level) :
    s.pnDOLevel p = level := by
  simp [-Fin.getElem_fin, State.pnDOLevel, hsel, hout]

/-! ### The clock's edges (R154) -/

theorem clockRises_ignored (h : s.pius[p].sel = false ∨ s.pius[p].link = .deselected) (b : Bool) :
    exec (.selectFall ⟨p, .rising b⟩) s = .next s := by
  have hoff : s.clocked p = false := by obtain h | h := h <;> simp [-Fin.getElem_fin, State.clocked, h]
  simp [exec, execSelectFall, clockRises, hoff]

theorem clockFalls_ignored (h : s.pnDO p = none) : exec (.selectFall ⟨p, .falling⟩) s = .next s := by
  simp [exec, execSelectFall, clockFalls, h]

theorem clockFalls_drives {x : Byte} (h : s.pnDO p = some x) :
    exec (.selectFall ⟨p, .falling⟩) s = .next (s.setWire p
      { s.pius[p].wire with out := some (some (x.getLsbD (7 - s.pius[p].wire.bits.length))) }) := by
  simp [exec, execSelectFall, clockFalls, h]

section Clocked
variable (hsel : s.pius[p].sel = true) (hlink : s.pius[p].link ≠ .deselected)
include hsel hlink

theorem clocked_of_open : s.clocked p = true := by simp [-Fin.getElem_fin, State.clocked, hsel, hlink]

/-- A bit of the byte before its eighth. -/
theorem clockRises_samples (b : Bool) (hbits : s.pius[p].wire.bits.length < 7) :
    exec (.selectFall ⟨p, .rising b⟩) s = .next
      (s.setWire p { bits := s.pius[p].wire.bits ++ [b], out := some (s.pnDOLevel p) }) := by
  simp [-Fin.getElem_fin, exec, execSelectFall, clockRises, clocked_of_open hsel hlink, hbits]

/-- The eighth bit: the byte's event on the link between two bytes, PnDO held. -/
theorem clockRises_whole (b : Bool) (hbits : s.pius[p].wire.bits.length = 7) :
    exec (.selectFall ⟨p, .rising b⟩) s =
      (byteWhole p (byteOf (s.pius[p].wire.bits ++ [b])) (s.byteEnd p)).holdPnDO p (s.pnDOLevel p) := by
  simp [-Fin.getElem_fin, exec, execSelectFall, clockRises, clocked_of_open hsel hlink, hbits]

end Clocked

/-! ### The byte of eight bits (R154) -/

/-- A bit more moves the byte up by one place. -/
theorem byteOf_concat (bits : List Bool) (b : Bool) :
    byteOf (bits ++ [b]) = (byteOf bits <<< 1) ||| (if b then 1 else 0) := by
  simp [byteOf]

/-- The bit sampled last stands at place 0. -/
theorem byteOf_getLsbD (bits : List Bool) (k : Nat) (hk : k < 8) :
    (byteOf bits).getLsbD k = bits.reverse.getD k false := by
  induction bits using List.reverseRecOn generalizing k with
  | nil => simp [byteOf]
  | append_singleton bits b ih =>
    have hlow : ((if b then 1 else 0 : Byte)).getLsbD k = (b && decide (k = 0)) := by
      cases b <;> simp [BitVec.getLsbD_one]
    rw [byteOf_concat, BitVec.getLsbD_or, hlow]
    cases k with
    | zero => simp
    | succ k =>
      have hbelow : k < 8 := by omega
      simpa [hk, BitVec.getLsbD_eq_getElem hbelow] using ih k hbelow

theorem byteOf_eq {bits : List Bool} {x : Byte} (hlen : bits.length = 8)
    (hx : ∀ k : Fin 8, x.getLsbD k.val = bits.getD (7 - k.val) false) : byteOf bits = x := by
  refine BitVec.eq_of_getLsbD_eq fun k hk => ?_
  rw [byteOf_getLsbD bits k hk, hx ⟨k, hk⟩, List.getD_eq_getElem?_getD, List.getD_eq_getElem?_getD,
    List.getElem?_reverse (by omega), hlen]

/-- The row of a byte is read from the transaction state, which the end of the byte before leaves. -/
theorem State.rowOf_byteEnd (s : State) (p : Port) (x : Byte) : (s.byteEnd p).rowOf p x = s.rowOf p x := by
  unfold State.rowOf
  rw [State.byteEnd_piu]

/-! ### PnSEL high (R154, R155) -/

theorem commandBeat_deselected {c : Cmd} {b : Beat} (hsel : s.pius[p].sel = false) (hb : beatOk c b = true) :
    commandBeat c p b s = .next s := by
  by_cases hc : c = .readData
  · subst hc
    dsimp only [commandBeat]
    unfold execReadData
    split
    · exact if_pos (by rw [hsel]; rfl)
    · exact linkBeat_deselected hsel hb _ _
  · obtain ⟨enter, close, hcourse⟩ := commandBeat_course hc p
    rw [hcourse, linkBeat_deselected hsel hb]

/-- Every event of a link with PnSEL high is ignored, but the select fall and the recording of a closed stream. -/
theorem exec_deselected {i : Instr} (hsel : s.pius[p].sel = false) (hi : portOf i = some p) (hwf : i.wellFormed = true)
    (hfall : i ≠ .selectFall ⟨p, .select⟩) (hrecord : i ≠ .streamClose p .record) : exec i s = .next s := by
  have hhigh : (!s.pius[p].sel) = true := by rw [hsel]; rfl
  cases linkRow_of_portOf hi with
  | edge e =>
    cases e with
    | select => exact absurd rfl hfall
    | rising b => exact clockRises_ignored (.inl hsel) b
    | falling => exact clockFalls_ignored (pnDO_deselected hsel).1
  | framing bits => exact if_pos hhigh
  | unknown b =>
    have hok : unknownBeatOk b = true := hwf
    simp [-Fin.getElem_fin, exec, execUnknownCommand, hok, hsel]
  | selectRise => exact if_pos hhigh
  | appendByte x => exact if_pos hhigh
  | rewriteByte x => exact if_pos hhigh
  | readByte => exact if_pos hhigh
  | close b =>
    cases b with
    | rise => exact if_pos hhigh
    | record => exact absurd rfl hrecord
  | command c b => rw [exec_row, commandBeat_deselected hsel (wellFormed_row c p b ▸ hwf)]

theorem exec_selectFall (hsel : s.pius[p].sel = false) :
    exec (.selectFall ⟨p, .select⟩) s = .next
      (s.setPiu p { s.pius[p] with sel := true, link := .command, wire := Wire.idle, early := !s.ready }) := by
  simp [-Fin.getElem_fin, exec, execSelectFall, selectFalls, hsel]

/-! ### Select rise (R155) -/

/-- A transaction that records no outcome: none of its bits counts, or it has been answered, ended or ignored. -/
def Piu.Silent (u : Piu) : Prop :=
  u.link = .deselected ∨ (u.link = .command ∧ (u.wire.bits = [] ∨ u.early = true)) ∨
    (∃ c ops bytes again, u.link = .body c ops (.copy bytes again)) ∨ (∃ c ops, u.link = .body c ops .ended) ∨
    (u.early = true ∧ ∃ x, u.link = .ignoring x)

theorem exec_selectRise (hsel : s.pius[p].sel = true) (h : s.pius[p].Silent) :
    exec (.selectRise p) s = .next (s.deselect p) := by
  obtain hl | ⟨hl, hbits | hearly⟩ | ⟨c, ops, bytes, again, hl⟩ | ⟨c, ops, hl⟩ | ⟨hearly, x, hl⟩ := h
  · simp [-Fin.getElem_fin, exec, execSelectRise, hsel, hl]
  · simp [-Fin.getElem_fin, exec, execSelectRise, State.midByte, hsel, hl, hbits]
  · simp [-Fin.getElem_fin, exec, execSelectRise, hsel, hl, hearly]
  · simp [-Fin.getElem_fin, exec, execSelectRise, hsel, hl]
  · simp [-Fin.getElem_fin, exec, execSelectRise, hsel, hl]
  · simp [-Fin.getElem_fin, exec, execSelectRise, hsel, hl, hearly]

end Edges

end Sys2Proof.Machine

namespace Sys2Proof.Proofs
open Machine

/-- Settles O5: with PnSEL high no row of the link does anything; with it low an edge samples, drives, or makes the byte
whole, which is then the event of its row. -/
theorem selectEdges : Obligations.SelectEdges := by
  intro s p
  refine ⟨fun hsel => ⟨exec_selectFall hsel, (pnDO_deselected hsel).1, (pnDO_deselected hsel).2,
      fun i hi hwf hfall hrecord => exec_deselected hsel hi hwf hfall hrecord⟩, exec_selectRise, pnDO_waiting,
    fun e hsel hlink he => ?_, fun b hsel hlink hbits => clockRises_samples hsel hlink b hbits,
    fun b x t hsel hlink hbits hx hrow => ?_, clockFalls_ignored, fun x hx => clockFalls_drives hx,
    fun level => pnDOLevel_left⟩
  · cases e with
    | select => exact absurd rfl he
    | rising b => exact clockRises_ignored (.inr hlink) b
    | falling => exact clockFalls_ignored (pnDO_waiting (.inl hlink))
  · have hbyte : byteOf (s.pius[p].wire.bits ++ [b]) = x := byteOf_eq (by simp [-Fin.getElem_fin, hbits]) hx
    have hopen : (s.byteEnd p).pius[p].link ≠ .deselected := by rwa [State.byteEnd_piu]
    have hwhole : byteWhole p x (s.byteEnd p) = .next t := by
      rw [← exec_rowOf hopen, State.rowOf_byteEnd]
      exact hrow
    rw [clockRises_whole hsel hlink b hbits, hbyte, hwhole]
    rfl

end Sys2Proof.Proofs
end

section
/-! PROOFS. What a link error records: FRAMING and UNKNOWN_COMMAND (R127, R157, R158). -/

namespace Sys2Proof.Machine

/-! ### FRAMING (R157) -/

section Framing
variable {s : State} {p : Port} {bits : Fin 8} (hsel : s.pius[p].sel = true) (hbits : s.bitsSampled p bits < 8)
include hsel hbits

theorem execFraming_command (hlink : s.pius[p].link = .command) (hready : s.pius[p].early = false)
    (hsome : s.bitsSampled p bits ≠ 0) :
    exec (.framing p bits) s = .next (s.linkError p 0 ⟨.framing, 0, 0⟩) := by
  simp [-Fin.getElem_fin, exec, execFraming, hsel, Nat.not_le.mpr hbits, hlink, hready, hsome]

theorem execFraming_operand {c : Cmd} {ops : List Byte} (hlink : s.pius[p].link = .operand c ops) :
    exec (.framing p bits) s =
      .next (s.linkError p c.code ⟨.framing, w16 ops.length, w16 c.operandCount⟩) := by
  simp [-Fin.getElem_fin, exec, execFraming, hsel, Nat.not_le.mpr hbits, hlink]

/-- A transaction with no bit sampled, or one that opened while INITIALIZING, closes in silence. -/
theorem execFraming_silent (hlink : s.pius[p].link = .command)
    (h : s.bitsSampled p bits = 0 ∨ s.pius[p].early = true) : exec (.framing p bits) s = .next (s.deselect p) := by
  have hquiet : (s.pius[p].early || decide (s.bitsSampled p bits = 0)) = true := by simpa [or_comm] using h
  have hwhole : ¬8 ≤ s.bitsSampled p bits := Nat.not_le.mpr hbits
  simp only [exec, execFraming, hsel, hlink, if_neg hwhole, if_pos hquiet]
  rfl

end Framing

/-! ### UNKNOWN_COMMAND (R158) -/

theorem Cmd.mem_all (c : Cmd) : c ∈ Cmd.all := by
  cases c <;> decide

theorem Cmd.ofCode_eq_none {x : Byte} : Cmd.ofCode x = none ↔ ∀ c : Cmd, c.code ≠ x := by
  simp [Cmd.ofCode, Cmd.mem_all]

section Unknown
variable {s : State} {p : Port} {x : Byte}

theorem execUnknownCommand_code (h : AtCommand s p) (hx : Cmd.ofCode x = none) :
    exec (.unknownCommand p (.code x)) s = .next (s.setLink p (.ignoring x)) := by
  obtain ⟨hsel, hlink, hready, hstream, hbyte⟩ := h
  simp [-Fin.getElem_fin, exec, execUnknownCommand, unknownBeatOk, State.midByte, hx, hsel, hlink, hready, hstream,
    hbyte]

section Ignoring
variable (hsel : s.pius[p].sel = true) (hlink : s.pius[p].link = .ignoring x) (hready : s.pius[p].early = false)
include hsel hlink hready

theorem pnDO_ignoring : s.pnDO p = some 0xFF := by
  simp [-Fin.getElem_fin, State.pnDO, hsel, hlink, hready]

theorem execUnknownCommand_pass (hbyte : AtByte s p) : exec (.unknownCommand p .pass) s = .next (s.byteEnd p) := by
  simp [-Fin.getElem_fin, exec, execUnknownCommand, unknownBeatOk, State.midByte, hsel, hlink, hready, hbyte]

theorem execUnknownCommand_rise :
    exec (.unknownCommand p .rise) s = .next (s.linkError p x ⟨.unknownCommand, 0, 0⟩) := by
  simp [-Fin.getElem_fin, exec, execUnknownCommand, unknownBeatOk, hsel, hlink, hready]

end Ignoring
end Unknown

end Sys2Proof.Machine

namespace Sys2Proof.Proofs
open Machine

/-- Settles O6: FRAMING by the transaction state, and the one update that a link error is. -/
theorem framingRecorded : Obligations.FramingRecorded := by
  rintro s p bits k hsel rfl hlt
  refine ⟨fun hlink hready hsome => ?_, fun c ops hlink => ?_, execFraming_silent hsel hlt⟩
  · rw [execFraming_command hsel hlt hlink hready hsome, State.linkError_eq]
  · rw [execFraming_operand hsel hlt hlink, State.linkError_eq]

/-- Settles O7: the undefined codes by the table, and an undefined code's transaction to its select rise. -/
theorem unknownCommandRecorded : Obligations.UnknownCommandRecorded := by
  refine ⟨fun _ => Cmd.ofCode_eq_none, by decide, by decide,
    fun s p x hx => ⟨fun h => execUnknownCommand_code h hx, fun hsel hlink hready =>
      ⟨pnDO_ignoring hsel hlink hready, execUnknownCommand_pass hsel hlink hready, ?_⟩⟩⟩
  rw [execUnknownCommand_rise hsel hlink hready, State.linkError_eq]

end Sys2Proof.Proofs
end

section
/-! PROOFS. The bytes of a command: its operands gathered, an action's wait, a query's copy, and the transaction that
opened while INITIALIZING (R154 to R156, R160, R161). -/

namespace Sys2Proof.Machine

section Course
variable {s : State} {p : Port} {c : Cmd} {ops : List Byte}

/-! ### Operands (R155, R156) -/

/-- The command byte of a command with operands. -/
theorem exec_code_operands (h : AtCommand s p) (hc : 0 < c.operandCount) :
    exec (row c p .code) s = .next (s.setLink p (.operand c [])) := by
  obtain ⟨enter, close, hcourse⟩ := commandBeat_linkBeat c (p := p) (b := .code) (s := s) nofun
  rw [exec_row, hcourse, linkBeat_code h, if_neg (by omega)]

/-- An operand byte that is not the last. -/
theorem exec_operand_gathers (x : Byte) (h : AtOperand s p c ops) (hmore : ops.length + 1 < c.operandCount) :
    exec (row c p (.operand x)) s = .next (s.setLink p (.operand c (ops ++ [x]))) := by
  obtain ⟨enter, close, hcourse⟩ := commandBeat_linkBeat c (p := p) (b := .operand x) (s := s) nofun
  rw [exec_row, hcourse, linkBeat_operand x h (by omega), if_pos hmore]

theorem pnDO_operand (hsel : s.pius[p].sel = true) (hlink : s.pius[p].link = .operand c ops) :
    s.pnDO p = some 0xFF := by
  simp [-Fin.getElem_fin, State.pnDO, hsel, hlink]

/-! ### An action's wait (R156) -/

theorem exec_action_code (hc : c.cls = .action) (h : AtCommand s p) (hnone : c.operandCount = 0) :
    exec (row c p .code) s = .next (s.setLink p (.body c [] .await)) := by
  obtain ⟨act, hact⟩ := commandBeat_action hc p
  rw [exec_row, hact, actionBeat, linkBeat_code h, if_pos hnone]

theorem exec_action_operand (hc : c.cls = .action) (x : Byte) (h : AtOperand s p c ops)
    (hlast : ops.length + 1 = c.operandCount) :
    exec (row c p (.operand x)) s = .next (s.setLink p (.body c (ops ++ [x]) .await)) := by
  obtain ⟨act, hact⟩ := commandBeat_action hc p
  rw [exec_row, hact, actionBeat, linkBeat_operand x h (by omega), if_neg (by omega)]

/-! ### A query's copy (R154, R156, R160) -/

/-- A query's select rise records nothing. -/
theorem exec_query_rise {bytes again : List Byte} (hc : c.cls = .query) (h : InBody s p c ops (.copy bytes again)) :
    exec (row c p .rise) s = .next (s.deselect p) := by
  have hns : c.cls ≠ .stream := by rw [hc]; exact nofun
  obtain ⟨always, copy, hcopy⟩ := commandBeat_query hc p
  rw [exec_row, hcopy, queryBeat, linkBeat_rise h hns]
  rfl

end Course

/-! ### A transaction that opened while INITIALIZING (R161) -/

section Early
variable {s : State} {p : Port} (hsel : s.pius[p].sel = true) (hearly : s.pius[p].early = true)
include hsel hearly

section Command
variable (hlink : s.pius[p].link = .command) (hbyte : AtByte s p)
include hlink hbyte

theorem exec_code_early {c : Cmd} (hc : c ≠ .identify) :
    exec (row c p .code) s = .next (s.setLink p (.ignoring c.code)) := by
  obtain ⟨enter, close, hcourse⟩ := commandBeat_linkBeat c (p := p) (b := .code) (s := s) nofun
  rw [exec_row, hcourse]
  simp [-Fin.getElem_fin, linkBeat, beatOk, codeWhole, State.midByte, hsel, hearly, hlink, hbyte, hc]

theorem execUnknownCommand_early {x : Byte} (hx : Cmd.ofCode x = none) :
    exec (.unknownCommand p (.code x)) s = .next (s.setLink p (.ignoring x)) := by
  simp [-Fin.getElem_fin, exec, execUnknownCommand, unknownBeatOk, State.midByte, hx, hsel, hearly, hlink, hbyte]

/-- Identify is answered, its ready flag 0. -/
theorem execIdentify_early (hstream : s.pius[p].stream = none) :
    exec (.identify p .code) s =
      .next (s.setLink p (.body .identify [] (.copy [0x6A, 0x41, 0x01, b8 p.val] []))) := by
  have hbytes : s.identifyBytes p = [0x6A, 0x41, 0x01, b8 p.val] := by
    simp [-Fin.getElem_fin, State.identifyBytes, Config.identity, hearly]
  simp [-Fin.getElem_fin, exec, execIdentify, queryBeat, linkBeat, beatOk, codeWhole, State.midByte, Cmd.operandCount,
    hsel, hlink, hbyte, hstream, hbytes]

end Command

section Ignoring
variable {x : Byte} (hlink : s.pius[p].link = .ignoring x)
include hlink

theorem pnDO_early : s.pnDO p = none := by
  simp [-Fin.getElem_fin, State.pnDO, hsel, hlink, hearly]

theorem linkBeat_early (hbyte : AtByte s p) {c : Cmd} {b : Beat} (hb : beatOk c b = true) (hrise : b ≠ .rise)
    (enter : List Byte → State → State) (close : List Byte → Body → State → State) :
    linkBeat c p b enter close s = .next s := by
  have hignored : ignoredBeat p b s = .next s := by
    cases b with
    | rise => exact absurd rfl hrise
    | _ => rfl
  simp [-Fin.getElem_fin, linkBeat, State.midByte, hb, hsel, hearly, hlink, hbyte, hignored]

/-- Every byte, whatever row names it, is ignored. -/
theorem exec_byte_early (hbyte : AtByte s p) {i : Instr} (hi : portOf i = some p) (hib : isByte i = true)
    (hwf : i.wellFormed = true) : exec i s = .next s := by
  cases linkRow_of_portOf hi with
  | unknown b =>
    have hok : unknownBeatOk b = true := hwf
    cases b with
    | rise => cases hib
    | _ => simp [-Fin.getElem_fin, exec, execUnknownCommand, State.midByte, hok, hsel, hearly, hlink, hbyte]
  | appendByte y =>
    simp [-Fin.getElem_fin, exec, execAppendDataByte, dataByteIn, State.midByte, hsel, hearly, hlink, hbyte]
  | rewriteByte y =>
    simp [-Fin.getElem_fin, exec, execRewriteDataByte, dataByteIn, State.midByte, hsel, hearly, hlink, hbyte]
  | readByte => simp [-Fin.getElem_fin, exec, execReadDataByte, State.midByte, hsel, hearly, hlink, hbyte]
  | command c b =>
    have hrise : b ≠ .rise := by simpa [isByte_row] using hib
    obtain ⟨enter, close, hcourse⟩ := commandBeat_linkBeat c (p := p) (b := b) (s := s) (by rw [hlink]; exact nofun)
    rw [exec_row, hcourse, linkBeat_early hsel hearly hlink hbyte (wellFormed_row c p b ▸ hwf) hrise]
  | _ => cases hib

end Ignoring
end Early

end Sys2Proof.Machine

namespace Sys2Proof.Proofs
open Machine

/-- Settles O8: the command byte and the operand bytes by the shared course, and an action's wait in BODY. -/
theorem operandsGathered : Obligations.OperandsGathered := by
  refine fun s p c => ⟨exec_code_operands, fun ops => pnDO_operand, fun ops x => exec_operand_gathers x,
    fun hc => ⟨exec_action_code hc, fun ops x => exec_action_operand hc x, fun ops h => ⟨?_, fun hbyte => ?_⟩⟩⟩
  · rw [State.pnDO_body h]
    rfl
  · exact exec_pass_same h hbyte (by rw [hc]; exact nofun) rfl

/-- Settles O9: the command byte of an early transaction by the command it names, and every later byte of any row. -/
theorem initializingIgnored : Obligations.InitializingIgnored := by
  refine fun s p hsel hearly => ⟨fun hlink hbyte => ⟨fun c => exec_code_early hsel hearly hlink hbyte,
    fun x => execUnknownCommand_early hsel hearly hlink hbyte, execIdentify_early hsel hearly hlink hbyte⟩,
    fun x hlink => ⟨pnDO_early hsel hearly hlink, fun i hbyte hi hib hwf => ?_, ?_⟩⟩
  · exact exec_byte_early hsel hearly hlink hbyte hi hib hwf
  · exact exec_selectRise hsel (.inr (.inr (.inr (.inr ⟨hearly, x, hlink⟩))))

/-- Settles O14: the byte driven and the copy moved on, by how many bytes are left, and the silent select rise. -/
theorem queryOutput : Obligations.QueryOutput := by
  intro s p c ops bytes again hc h
  have hns : c.cls ≠ .stream := by rw [hc]; exact nofun
  have hdrives := State.pnDO_body h
  refine ⟨?_, ?_, ?_, exec_query_rise hc h⟩
  · rintro rfl
    exact ⟨hdrives, fun hbyte => exec_pass_same h hbyte hns rfl⟩
  · rintro b rfl
    exact ⟨hdrives, fun hbyte => exec_pass h hbyte hns⟩
  · rintro b b' bs rfl
    exact ⟨hdrives, fun hbyte => exec_pass h hbyte hns⟩

end Sys2Proof.Proofs
end
